-- ==== Sys2Proof/Word.lean ====
section
/-! DEFINITION. The words the spec moves about: bytes, nibbles and bus addresses (spec/00_scope.md R11: every value is unsigned). -/

namespace Sys2Proof

/-- `u8`: a request byte, a payload byte, a shadow register (R11, R34). -/
abbrev Byte := BitVec 8

/-- `u4`: half of a byte (R122). -/
abbrev Nibble := BitVec 4

/-- `u7`: a device address on the bus (R31, R60). -/
abbrev BusAddr := BitVec 7

end Sys2Proof
end

