-- ==== Sys2Proof/Config.lean ====
section
/-! DEFINITION. What is fixed when the block is built or strapped: the build-time parameters of spec/00_scope.md R8, the CFG-GK parameter set of R10, the straps of R7, and the free values (constants without a body). -/

namespace Sys2Proof

/-- The two controller families (R2, R30). -/
inductive Family where
  | nibble
  | byteMode
deriving DecidableEq, Repr, Inhabited

/-- The three bus-error policies (R33, R237 to R239). -/
inductive Policy where
  | swallow
  | log
  | propagate
deriving DecidableEq, Repr, Inhabited

/-- The configuration straps as levels on the `cfg` port, with the widths of R7; every bit pattern can be strapped. -/
structure Straps where
  family : BitVec 2
  addr   : BusAddr
  rows   : BitVec 3
  policy : BitVec 2
deriving DecidableEq, Repr, Inhabited

/-- One step of an initialization list (R273). -/
inductive InitStep where
  | cmd  (b : Byte)
  | dat  (b : Byte)
  | nib  (n : Nibble)
  | wait (t : Nat)
deriving DecidableEq, Repr, Inhabited

/-- The parameters that R8 marks `[f]`: one value for each family. -/
structure FamilyParams where
  cmdClear  : Byte
  cmdEM     : Byte
  cmdDC     : Byte
  cmdShift  : Byte
  cmdFS     : Byte
  cmdCGRAM  : Byte
  cmdDDRAM  : Byte
  ddramMax  : Byte
  emLTR     : Byte
  emShift   : Byte
  dcDisplay : Byte
  dcCursor  : Byte
  dcBlink   : Byte
  shDisplay : Byte
  shRight   : Byte
  initFS    : Byte
  initDC    : Byte
  initEM    : Byte
deriving DecidableEq, Repr, Inhabited

/-- Four bytes in the order they are sent: the unlock and the re-lock bytes of the extended envelope (R8, R203). -/
structure Quad where
  b1 : Byte
  b2 : Byte
  b3 : Byte
  b4 : Byte
deriving DecidableEq, Repr, Inhabited

/-- The build-time parameters of R8, one field for each row of its table.
`P_NIBBLE_ORDER` has no field: R63 and R124 fix it to LOW_FIRST for this hardware. -/
structure Params where
  nibShift        : Nat
  rsMask          : Byte
  enMask          : Byte
  blMask          : Byte
  tNibStep        : Nat
  modeCmd         : Byte
  modeData        : Byte
  tSettle         : Nat
  tClear          : Nat
  tModeEntry      : Nat
  tPowerOn        : Nat
  nibbleFam       : FamilyParams
  byteFam         : FamilyParams
  initBL          : Bool
  modeEntryNibble : Nibble
  nibPreTail      : List InitStep
  bytePreamble    : List InitStep
  envUnlock       : Quad
  selContrast     : Byte
  selFade         : Byte
  envRelock       : Quad
  fadeModeOff     : Byte
  fadeModeOnce    : Byte
  fadeModeBlink   : Byte
  glyphRows       : Nat
deriving DecidableEq, Repr

/-- `P_x[f]` for the `[f]` parameters (R8, R12). -/
def Params.fam (p : Params) : Family → FamilyParams
  | .nibble   => p.nibbleFam
  | .byteMode => p.byteFam

/-- A step of the byte-mode preamble: R275 allows `Cmd`, `Dat` and `Wait`, and R9 item 8 forbids `Nib`. -/
inductive PreambleStep where
  | cmd  (b : Byte)
  | dat  (b : Byte)
  | wait (t : Nat)
deriving DecidableEq, Repr, Inhabited

/-- The preamble step as an init step. -/
def PreambleStep.toInit : PreambleStep → InitStep
  | .cmd b  => .cmd b
  | .dat b  => .dat b
  | .wait t => .wait t

/-- The entries that R8 leaves OPEN.
A fade mode code is given by its bits 7:4, since R9 item 10 fixes bits 3:0 to zero. -/
structure OpenEntries where
  preamble    : List PreambleStep
  unlock      : Quad
  selContrast : Byte
  selFade     : Byte
  relock      : Quad
  fadeOff     : Nibble
  fadeOnce    : Nibble
  fadeBlink   : Nibble
deriving DecidableEq, Repr, Inhabited

/-- The `[f]` values of CFG-GK, the same for both families (R8; 93_implementation_defined.md G1, G6). -/
def gkFamily : FamilyParams where
  cmdClear  := 0x01
  cmdEM     := 0x04
  cmdDC     := 0x08
  cmdShift  := 0x10
  cmdFS     := 0x20
  cmdCGRAM  := 0x40
  cmdDDRAM  := 0x80
  ddramMax  := 0x7F
  emLTR     := 0x02
  emShift   := 0x01
  dcDisplay := 0x04
  dcCursor  := 0x02
  dcBlink   := 0x01
  shDisplay := 0x08
  shRight   := 0x04
  initFS    := 0x08
  initDC    := 0x04
  initEM    := 0x02

/-- CFG-GK over any choice of the OPEN entries (R8, R10): "its OPEN entries stay symbolic". -/
def gkParams (o : OpenEntries) : Params where
  nibShift        := 4
  rsMask          := 0x01
  enMask          := 0x04
  blMask          := 0x08
  tNibStep        := 0
  modeCmd         := 0x80
  modeData        := 0x40
  tSettle         := 1000
  tClear          := 1530
  tModeEntry      := 4100
  tPowerOn        := 0
  nibbleFam       := gkFamily
  byteFam         := gkFamily
  initBL          := true
  modeEntryNibble := 0x3
  nibPreTail      := [.nib 0x2]
  bytePreamble    := o.preamble.map PreambleStep.toInit
  envUnlock       := o.unlock
  selContrast     := o.selContrast
  selFade         := o.selFade
  envRelock       := o.relock
  fadeModeOff     := o.fadeOff ++ 0#4
  fadeModeOnce    := o.fadeOnce ++ 0#4
  fadeModeBlink   := o.fadeBlink ++ 0#4
  glyphRows       := 7

/-- The OPEN entries of the block that `State.reset` describes: R8 gives no default at all, so they are free (log entry 2). -/
opaque Config.openEntries : OpenEntries

/-- Free values of the fields that R45 calls unspecified (U1, U2 of 93_implementation_defined.md): the model's
counter picks the draw, and nothing constrains what is drawn (log entry 3). -/
opaque Config.freeFamily : Nat → Family
/-- Free draw for `S.addr` (R45, U1). -/
opaque Config.freeAddr : Nat → BusAddr
/-- Free draw for `S.rows` (R45, U1, U2). -/
opaque Config.freeRows : Nat → Nat
/-- Free draw for `S.policy` (R45, U1, U2). -/
opaque Config.freePolicy : Nat → Policy
/-- Free draw for `S.EM` (R45, U1, U2). -/
opaque Config.freeEM : Nat → Byte
/-- Free draw for `S.DC` (R45, U1, U2). -/
opaque Config.freeDC : Nat → Byte
/-- Free draw for `S.FS` (R45, U1, U2). -/
opaque Config.freeFS : Nat → Byte
/-- Free draw for `S.BL` (R45, U1, U2). -/
opaque Config.freeBL : Nat → Bool

end Sys2Proof
end

