-- ==== Sys2Proof/Syntax.lean ====
section
/-! DEFINITION. Syntax, whole: the requests (one constructor for each row of spec/opcode_table.json), the actions and records the block emits, and the assembler's lines (spec/30_encoding.md R97 to R99). -/

namespace Sys2Proof

/-- The pixel rows `g[0]` to `g[7]` of CREATE_CHAR, top row first (R91, R200). -/
structure Glyph where
  g0 : Byte
  g1 : Byte
  g2 : Byte
  g3 : Byte
  g4 : Byte
  g5 : Byte
  g6 : Byte
  g7 : Byte
deriving DecidableEq, Repr

/-- The rows as a list, `g[0]` first (R66). -/
def Glyph.rows (g : Glyph) : List Byte := [g.g0, g.g1, g.g2, g.g3, g.g4, g.g5, g.g6, g.g7]

/-- A request: opcode and operands (R90 to R94). Every operand is one whole byte as received (R92). -/
inductive Instr where
  | writeChar (ch : Byte)
  | clear
  | home
  | cursorMove (row col : Byte)
  | displayOn
  | displayOff
  | cursorOn
  | cursorOff
  | blinkOn
  | blinkOff
  | displayShiftLeft
  | displayShiftRight
  | cursorShiftLeft
  | cursorShiftRight
  | displayLtr
  | displayRtl
  | displayShiftOn
  | displayShiftOff
  | createChar (slot : Byte) (g : Glyph)
  | backlightOn
  | backlightOff
  | setBrightness (value : Byte)
  | fadeOff
  | fadeOnce (rate : Byte)
  | fadeBlink (rate : Byte)
deriving DecidableEq, Repr

/-- An action on the `act` port (R120). -/
inductive Action where
  /-- Plain byte write of `v` to bus address `a`. -/
  | wb (a : BusAddr) (v : Byte)
  /-- Byte write of `v` to sub-register or mode-select `r` at bus address `a`. -/
  | wbr (a : BusAddr) (r v : Byte)
  /-- A minimum delay of `t` microseconds. -/
  | wait (t : Nat)
deriving DecidableEq, Repr

/-- A WB or WBR, the only actions that can fail (R236). -/
def Action.isWrite : Action → Bool
  | .wb _ _    => true
  | .wbr _ _ _ => true
  | .wait _    => false

/-- The response codes of R230. -/
inductive RspCode where
  | ok
  | busError
  | unsupported
  | illegalOpcode
  | badOperand
deriving DecidableEq, Repr

/-- A record on the `rsp` port (R230). -/
structure Response where
  op   : Byte
  code : RspCode
deriving DecidableEq, Repr

/-- A record on the `log` port (R238). -/
structure LogRecord where
  op     : Byte
  pos    : Nat
  action : Action
deriving DecidableEq, Repr

/-- The mnemonics of R94. -/
inductive Mnemonic where
  | writeChar | clear | home | cursorMove
  | displayOn | displayOff | cursorOn | cursorOff | blinkOn | blinkOff
  | displayShiftLeft | displayShiftRight | cursorShiftLeft | cursorShiftRight
  | displayLtr | displayRtl | displayShiftOn | displayShiftOff
  | createChar | backlightOn | backlightOff
  | setBrightness | fadeOff | fadeOnce | fadeBlink
deriving DecidableEq, Repr

/-- The four request formats of R91. -/
inductive Format where
  | n
  | b
  | rc
  | g
deriving DecidableEq, Repr

/-- An operand as the assembler reads it, before its range check (R97): a number, a character's code (`charCode`, log entry 19), or a bracketed
list of rows, which are numbers only (DESIGN CHOICE, log entry 19). -/
inductive AsmArg where
  | num  (n : Nat)
  | chr  (code : Nat)
  | rows (gs : List Nat)
deriving DecidableEq, Repr

/-- One assembler line: a request, or the pseudo-operation WRITE_STRING with its characters' codes (R97, R99). -/
inductive AsmLine where
  | request (m : Mnemonic) (args : List AsmArg)
  | writeString (codes : List Nat)
deriving DecidableEq, Repr

end Sys2Proof
end

