-- ==== Sys2Proof/WellFormed.lean ====
section
/-! DEFINITION. Well-formedness: of a parameter set (spec/00_scope.md R8, R9), of the straps (R7) and of an assembler line (spec/30_encoding.md R97, R99). A term of `Instr` needs no check: its operands are bytes by type, and no operand value is illegal at decode (R95). -/

namespace Sys2Proof

/-- "u8, one bit set" (R8, R9 item 1). -/
def oneBit (m : Byte) : Bool := m != 0 && (m &&& (m - 1)) == 0

/-- The types R8 gives the parameters, where `Params` does not carry them: the nibble's place, the one-bit flags and the glyph row count. -/
def FamilyParams.typed (f : FamilyParams) : Bool :=
  oneBit f.emLTR && oneBit f.emShift && oneBit f.dcDisplay && oneBit f.dcCursor && oneBit f.dcBlink
    && oneBit f.shDisplay && oneBit f.shRight

/-- The column "type" of R8. -/
def Params.typed (p : Params) : Bool :=
  decide (p.nibShift ≤ 4) && p.nibbleFam.typed && p.byteFam.typed && (p.glyphRows == 7 || p.glyphRows == 8)

/-- R9 item 1. -/
def Params.item1 (p : Params) : Bool :=
  oneBit p.rsMask && oneBit p.enMask && oneBit p.blMask
    && p.rsMask != p.enMask && p.rsMask != p.blMask && p.enMask != p.blMask

/-- R9 item 2. -/
def Params.item2 (p : Params) : Bool :=
  ((p.rsMask ||| p.enMask ||| p.blMask) &&& ((0x0F : Byte) <<< p.nibShift)) == 0

/-- R9 item 3, for one family. -/
def FamilyParams.item3 (f : FamilyParams) : Bool :=
  ((f.emLTR ||| f.emShift) &&& f.cmdEM) == 0
    && ((f.dcDisplay ||| f.dcCursor ||| f.dcBlink) &&& f.cmdDC) == 0
    && ((f.shDisplay ||| f.shRight) &&& f.cmdShift) == 0

/-- R9 item 4, for one family. -/
def FamilyParams.item4 (f : FamilyParams) : Bool :=
  f.emLTR != f.emShift
    && f.dcDisplay != f.dcCursor && f.dcDisplay != f.dcBlink && f.dcCursor != f.dcBlink
    && f.shDisplay != f.shRight

/-- R9 item 5, for one family. -/
def FamilyParams.item5 (f : FamilyParams) : Bool := (f.cmdDDRAM &&& f.ddramMax) == 0

/-- R9 item 6, for one family. -/
def FamilyParams.item6 (f : FamilyParams) : Bool := (f.cmdCGRAM &&& 0x3F) == 0

/-- R9 items 3 to 6, for one family. -/
def FamilyParams.wf (f : FamilyParams) : Bool := f.item3 && f.item4 && f.item5 && f.item6

/-- R9 item 7. -/
def Params.item7 (p : Params) : Bool :=
  decide (1000 ≤ p.tSettle) && decide (1530 ≤ p.tClear) && decide (4100 ≤ p.tModeEntry)

/-- `Nib` steps, which a byte-mode preamble may not hold. -/
def InitStep.isNib : InitStep → Bool
  | .nib _ => true
  | _      => false

/-- R9 item 8. -/
def Params.item8 (p : Params) : Bool := p.bytePreamble.all fun st => !st.isNib

/-- R9 item 9. -/
def Params.item9 (p : Params) : Bool := p.modeCmd != p.modeData

/-- R9 item 10. -/
def Params.item10 (p : Params) : Bool :=
  (p.fadeModeOff &&& 0x0F) == 0 && (p.fadeModeOnce &&& 0x0F) == 0 && (p.fadeModeBlink &&& 0x0F) == 0

/-- A parameter set is well-formed (R8's types and all ten items of R9). -/
def Params.wf (p : Params) : Bool :=
  p.typed && p.item1 && p.item2 && p.nibbleFam.wf && p.byteFam.wf && p.item7 && p.item8 && p.item9 && p.item10

/-- A well-formed parameter set. R9: "A model refuses a parameter set that fails any of them", and R241: such a set "is
refused when the model is built, not at run time"; so one that fails cannot be built into a state. -/
structure WfParams where
  val : Params
  ok  : val.wf = true
deriving DecidableEq, Repr

theorem preamble_has_no_nib (l : List PreambleStep) :
    ((l.map PreambleStep.toInit).all fun st => !st.isNib) = true := by
  induction l with
  | nil => rfl
  | cons a l ih => cases a <;> simpa [PreambleStep.toInit, InitStep.isNib] using ih

theorem fade_code_low_bits_zero : ∀ x : Nibble, ((x ++ 0#4 : Byte) &&& 0x0F) = 0 := by decide

/-- CFG-GK is well-formed whatever its OPEN entries are (R10). -/
theorem gkParams_wf (o : OpenEntries) : (gkParams o).wf = true := by
  have h8 : (gkParams o).item8 = true := preamble_has_no_nib o.preamble
  have h10 : (gkParams o).item10 = true := by
    simp only [Params.item10, gkParams, Bool.and_eq_true, beq_iff_eq]
    exact ⟨⟨fade_code_low_bits_zero _, fade_code_low_bits_zero _⟩, fade_code_low_bits_zero _⟩
  have hfam : (gkFamily.typed && gkFamily.wf) = true := by decide
  simp only [Bool.and_eq_true] at hfam
  have ht : (gkParams o).typed = true := by simp [Params.typed, gkParams, hfam]
  have h1 : (gkParams o).item1 = true := by simp [Params.item1, gkParams, oneBit]
  have h2 : (gkParams o).item2 = true := by simp [Params.item2, gkParams]
  have h7 : (gkParams o).item7 = true := by simp [Params.item7, gkParams]
  have h9 : (gkParams o).item9 = true := by simp [Params.item9, gkParams]
  have hn : (gkParams o).nibbleFam.wf = true := hfam.2
  have hb : (gkParams o).byteFam.wf = true := hfam.2
  simp only [Params.wf, ht, h1, h2, hn, hb, h7, h8, h9, h10, Bool.and_self]

/-- CFG-GK as a well-formed parameter set (R10). -/
def gk (o : OpenEntries) : WfParams := ⟨gkParams o, gkParams_wf o⟩

/-- The format of each mnemonic (R94). -/
def Mnemonic.format : Mnemonic → Format
  | .writeChar         => .b
  | .clear             => .n
  | .home              => .n
  | .cursorMove        => .rc
  | .displayOn         => .n
  | .displayOff        => .n
  | .cursorOn          => .n
  | .cursorOff         => .n
  | .blinkOn           => .n
  | .blinkOff          => .n
  | .displayShiftLeft  => .n
  | .displayShiftRight => .n
  | .cursorShiftLeft   => .n
  | .cursorShiftRight  => .n
  | .displayLtr        => .n
  | .displayRtl        => .n
  | .displayShiftOn    => .n
  | .displayShiftOff   => .n
  | .createChar        => .g
  | .backlightOn       => .n
  | .backlightOff      => .n
  | .setBrightness     => .b
  | .fadeOff           => .n
  | .fadeOnce          => .b
  | .fadeBlink         => .b

/-- An operand for one byte: a number or a character code in 0..255 (log entry 19); out of range is refused, never truncated
(R97). -/
def AsmArg.isByte : AsmArg → Bool
  | .num n  => decide (n ≤ 255)
  | .chr c  => decide (c ≤ 255)
  | .rows _ => false

/-- The row list of CREATE_CHAR: "exactly 8 rows", each 0..255 (R97), written as a number (log entry 19). -/
def AsmArg.isRows : AsmArg → Bool
  | .rows gs => gs.length == 8 && gs.all fun n => decide (n ≤ 255)
  | _        => false

/-- The operands fit the mnemonic's format (R91, R97). -/
def Format.accepts : Format → List AsmArg → Bool
  | .n,  []     => true
  | .b,  [a]    => a.isByte
  | .rc, [r, c] => r.isByte && c.isByte
  | .g,  [s, gs] => s.isByte && gs.isRows
  | _,   _      => false

/-- An assembler line is well-formed (R97; R99 for the characters of WRITE_STRING). -/
def AsmLine.wf : AsmLine → Bool
  | .request m args    => m.format.accepts args
  | .writeString codes => codes.all fun c => decide (c ≤ 255)

end Sys2Proof
end

