-- ==== Sys2Proof/Decode.lean ====
section
/-! DEFINITION. The request decoder and encoder (spec/30_encoding.md R90 to R96), the response, phase and strap codes (R7, R230), and the host's table word. -/

namespace Sys2Proof

/-- What the decoder reads from the front of a byte list. -/
inductive Decoded where
  /-- A whole request, and the bytes after it. -/
  | ok (i : Instr) (rest : List Byte)
  /-- Byte 0 is no opcode of R94: a complete request of length 1 (R95). -/
  | illegal (b : Byte) (rest : List Byte)
  /-- The bytes so far are a proper prefix of a request, or there are none (R90). -/
  | incomplete
deriving DecidableEq, Repr

/-- Format N: no operand byte (R91). -/
def decodeN (i : Instr) (rest : List Byte) : Decoded := .ok i rest

/-- Format B: operand `a` is byte 1 (R91). -/
def decodeB (f : Byte → Instr) : List Byte → Decoded
  | a :: rest => .ok (f a) rest
  | []        => .incomplete

/-- Format RC: `row` is byte 1, `col` is byte 2 (R91). -/
def decodeRC (f : Byte → Byte → Instr) : List Byte → Decoded
  | r :: c :: rest => .ok (f r c) rest
  | _              => .incomplete

/-- Format G: `slot` is byte 1, `g[i]` is byte 2+i (R91). -/
def decodeG (f : Byte → Glyph → Instr) : List Byte → Decoded
  | s :: g0 :: g1 :: g2 :: g3 :: g4 :: g5 :: g6 :: g7 :: rest => .ok (f s ⟨g0, g1, g2, g3, g4, g5, g6, g7⟩) rest
  | _ => .incomplete

/-- What the opcode byte fixes: the format, and how its operand bytes make a request (R91, R94). -/
inductive Layout where
  | n  (i : Instr)
  | b  (f : Byte → Instr)
  | rc (f : Byte → Byte → Instr)
  | g  (f : Byte → Glyph → Instr)

/-- The complete opcode map (R94). -/
def opcodeMap : List (Byte × Layout) :=
  [(0x01, .b .writeChar),
   (0x02, .n .clear),
   (0x03, .n .home),
   (0x04, .rc .cursorMove),
   (0x10, .n .displayOn),
   (0x11, .n .displayOff),
   (0x12, .n .cursorOn),
   (0x13, .n .cursorOff),
   (0x14, .n .blinkOn),
   (0x15, .n .blinkOff),
   (0x20, .n .displayShiftLeft),
   (0x21, .n .displayShiftRight),
   (0x22, .n .cursorShiftLeft),
   (0x23, .n .cursorShiftRight),
   (0x30, .n .displayLtr),
   (0x31, .n .displayRtl),
   (0x32, .n .displayShiftOn),
   (0x33, .n .displayShiftOff),
   (0x40, .g .createChar),
   (0x50, .n .backlightOn),
   (0x51, .n .backlightOff),
   (0x60, .b .setBrightness),
   (0x70, .n .fadeOff),
   (0x71, .b .fadeOnce),
   (0x72, .b .fadeBlink)]

/-- The row of the map an opcode byte selects, none for an illegal one (R94, R95). -/
def layoutOf (op : Byte) : Option Layout := opcodeMap.lookup op

/-- Read the operand bytes of a layout. -/
def Layout.decode : Layout → List Byte → Decoded
  | .n i,  rest => decodeN i rest
  | .b f,  rest => decodeB f rest
  | .rc f, rest => decodeRC f rest
  | .g f,  rest => decodeG f rest

/-- Byte 0 selects the row (R94); a byte outside the map is illegal (R95). -/
def decodeOp (op : Byte) (rest : List Byte) : Decoded :=
  match layoutOf op with
  | some l => l.decode rest
  | none   => .illegal op rest

/-- Decoding depends on the bytes alone (R93). -/
def decode : List Byte → Decoded
  | []         => .incomplete
  | op :: rest => decodeOp op rest

/-- The opcode byte of a request (R94). -/
def Instr.opcode : Instr → Byte
  | .writeChar _       => 0x01
  | .clear             => 0x02
  | .home              => 0x03
  | .cursorMove _ _    => 0x04
  | .displayOn         => 0x10
  | .displayOff        => 0x11
  | .cursorOn          => 0x12
  | .cursorOff         => 0x13
  | .blinkOn           => 0x14
  | .blinkOff          => 0x15
  | .displayShiftLeft  => 0x20
  | .displayShiftRight => 0x21
  | .cursorShiftLeft   => 0x22
  | .cursorShiftRight  => 0x23
  | .displayLtr        => 0x30
  | .displayRtl        => 0x31
  | .displayShiftOn    => 0x32
  | .displayShiftOff   => 0x33
  | .createChar _ _    => 0x40
  | .backlightOn       => 0x50
  | .backlightOff      => 0x51
  | .setBrightness _   => 0x60
  | .fadeOff           => 0x70
  | .fadeOnce _        => 0x71
  | .fadeBlink _       => 0x72

/-- The operand bytes of a request, in stream order (R91, R92). -/
def Instr.operands : Instr → List Byte
  | .writeChar ch       => [ch]
  | .clear              => []
  | .home               => []
  | .cursorMove row col => [row, col]
  | .displayOn          => []
  | .displayOff         => []
  | .cursorOn           => []
  | .cursorOff          => []
  | .blinkOn            => []
  | .blinkOff           => []
  | .displayShiftLeft   => []
  | .displayShiftRight  => []
  | .cursorShiftLeft    => []
  | .cursorShiftRight   => []
  | .displayLtr         => []
  | .displayRtl         => []
  | .displayShiftOn     => []
  | .displayShiftOff    => []
  | .createChar slot g  => slot :: g.rows
  | .backlightOn        => []
  | .backlightOff       => []
  | .setBrightness v    => [v]
  | .fadeOff            => []
  | .fadeOnce rate      => [rate]
  | .fadeBlink rate     => [rate]

/-- The bytes of a request in stream order (R90, R101). -/
def encode (i : Instr) : List Byte := i.opcode :: i.operands

/-- The length of a request of each format (R91). -/
def Layout.length : Layout → Nat
  | .n _  => 1
  | .b _  => 2
  | .rc _ => 3
  | .g _  => 10

/-- `L(op)`: the length of the request that starts with this byte; 1 for an illegal opcode (R94, R95, R96). -/
def requestLength (op : Byte) : Nat :=
  match layoutOf op with
  | some l => l.length
  | none   => 1

/-- `op` is one of the 25 opcodes of R94. -/
def isOpcode (op : Byte) : Bool := (layoutOf op).isSome

/-- Every request in a byte stream, in order, with the illegal bytes among them (R73, R95): an item is a request or an
illegal byte, and the second part is the incomplete rest. The first argument bounds the number of items. -/
def decodeStream : Nat → List Byte → List (Instr ⊕ Byte) × List Byte
  | 0, bs => ([], bs)
  | n + 1, bs =>
    match decode bs with
    | .ok i rest      => let r := decodeStream n rest; (.inl i :: r.1, r.2)
    | .illegal b rest => let r := decodeStream n rest; (.inr b :: r.1, r.2)
    | .incomplete     => ([], bs)

/-- The number of a response code on the `rsp` port, a `u3` (R230). -/
def RspCode.code : RspCode → BitVec 3
  | .ok            => 0
  | .busError      => 1
  | .unsupported   => 2
  | .illegalOpcode => 3
  | .badOperand    => 4

/-- `cfg_family`: 2 and 3 are invalid (R7). -/
def Straps.family? (c : Straps) : Option Family :=
  match c.family with
  | 0#2 => some .nibble
  | 1#2 => some .byteMode
  | _   => none

/-- `cfg_rows`: 0, 5, 6 and 7 are invalid (R7). -/
def Straps.rows? (c : Straps) : Option Nat :=
  if 1 ≤ c.rows.toNat ∧ c.rows.toNat ≤ 4 then some c.rows.toNat else none

/-- `cfg_policy`: 3 is invalid (R7). -/
def Straps.policy? (c : Straps) : Option Policy :=
  match c.policy with
  | 0#2 => some .swallow
  | 1#2 => some .log
  | 2#2 => some .propagate
  | _   => none

/-- The families an opcode is supported in (R94, R234). -/
def Instr.supported : Instr → Family → Bool
  | .backlightOn,     .byteMode => false
  | .backlightOff,    .byteMode => false
  | .setBrightness _, .nibble   => false
  | .fadeOff,         .nibble   => false
  | .fadeOnce _,      .nibble   => false
  | .fadeBlink _,     .nibble   => false
  | _,                _         => true

/-- The first `n` bytes of a table word: bit 0 is the least significant bit of the first byte. -/
def wordBytes : Nat → Nat → List Byte
  | 0,     _ => []
  | n + 1, w => BitVec.ofNat 8 w :: wordBytes n (w / 256)

/-- The longest request has 10 bytes (R91). -/
def maxRequestBytes : Nat := 10

/-- The bytes of a table row's word, with every bit above `nbits` zero. -/
def tableBytes (nbits w : Nat) : List Byte := wordBytes maxRequestBytes (w % 2 ^ nbits)

/-- The instruction the decoder reads from a table word. -/
def decodeTableWord (nbits w : Nat) : Option Instr :=
  match decode (tableBytes nbits w) with
  | .ok i _ => some i
  | _       => none

end Sys2Proof
end

