-- ==== Sys2Proof/Machine/Encoders.lean ====
section
/-! DEFINITION. The two protocol encoders (spec/40_encoders.md R122 to R127) and the init script built on them (spec/70_reset_and_hazards.md R273 to R276), as functions of what an encoder reads. -/

namespace Sys2Proof.Machine

/-- What an encoder reads (R128): the parameters, `S.family`, `S.addr` and `S.BL`. -/
structure Enc where
  params : WfParams
  family : Family
  addr   : BusAddr
  BL     : Bool
deriving DecidableEq, Repr

/-- All parameters. -/
def Enc.P (e : Enc) : Params := e.params.val

/-- `P_x[S.family]` (R12). -/
def Enc.F (e : Enc) : FamilyParams := e.params.val.fam e.family

/-- `b[3:0]` (R11, R124). -/
def lowNibble (b : Byte) : Nibble := b.extractLsb' 0 4

/-- `b[7:4]` (R11, R124). -/
def highNibble (b : Byte) : Nibble := b.extractLsb' 4 4

/-- `c ? m : 0x00` for a mask (R11, R122). -/
def maskIf (c : Bool) (m : Byte) : Byte := if c then m else 0x00

/-- `WAIT(t)`, or nothing when `t = 0` (R14, R273). -/
def waitFor (t : Nat) : List Action := if t = 0 then [] else [.wait t]

/-- The expander byte `xb(n, rs, en)` (R122). -/
def xb (e : Enc) (n : Nibble) (rs en : Bool) : Byte :=
  (n.setWidth 8 <<< e.P.nibShift) ||| maskIf rs e.P.rsMask ||| maskIf en e.P.enMask ||| maskIf e.BL e.P.blMask

/-- `NibWrite(n, rs)`: EN low, EN high, EN low (R123). -/
def nibWrite (e : Enc) (n : Nibble) (rs : Bool) : List Action :=
  [.wb e.addr (xb e n rs false)] ++ waitFor e.P.tNibStep
    ++ [.wb e.addr (xb e n rs true)] ++ waitFor e.P.tNibStep
    ++ [.wb e.addr (xb e n rs false)]

/-- `NibByte(b, rs)`: the low nibble first (R63, R124). -/
def nibByte (e : Enc) (b : Byte) (rs : Bool) : List Action :=
  nibWrite e (lowNibble b) rs ++ nibWrite e (highNibble b) rs

/-- `ByteWrite(b, rs)`: one WBR, then the settle wait (R65, R125). -/
def byteWrite (e : Enc) (b : Byte) (rs : Bool) : List Action :=
  [.wbr e.addr (if rs then e.P.modeData else e.P.modeCmd) b, .wait e.P.tSettle]

/-- The command path `Cmd(b)` (R126). -/
def cmd (e : Enc) (b : Byte) : List Action :=
  match e.family with
  | .nibble   => nibByte e b false
  | .byteMode => byteWrite e b false

/-- The data path `Dat(b)` (R127). -/
def dat (e : Enc) (b : Byte) : List Action :=
  match e.family with
  | .nibble   => nibByte e b true
  | .byteMode => byteWrite e b true

/-- The script of CLEAR: the clear command, then the clear wait (R151). -/
def clearScript (e : Enc) : List Action := cmd e e.F.cmdClear ++ [.wait e.P.tClear]

/-- The script of HOME: the set-DDRAM command to address 0 (R152). -/
def homeScript (e : Enc) : List Action := cmd e (e.F.cmdDDRAM ||| 0x00)

/-- One init step (R273). -/
def initStep (e : Enc) : InitStep → List Action
  | .cmd b  => cmd e b
  | .dat b  => dat e b
  | .nib n  => nibWrite e n false
  | .wait t => waitFor t

/-- A list of init steps, in order. -/
def initSteps (e : Enc) (l : List InitStep) : List Action := l.flatMap (initStep e)

/-- One mode-entry pulse with its wait (R274). -/
def modeEntryPulse (e : Enc) : List Action :=
  nibWrite e e.P.modeEntryNibble false ++ waitFor e.P.tModeEntry

/-- NibblePreamble (R274). -/
def nibblePreamble (e : Enc) : List Action :=
  modeEntryPulse e ++ modeEntryPulse e ++ modeEntryPulse e ++ initSteps e e.P.nibPreTail

/-- ByteModePreamble (R275). -/
def byteModePreamble (e : Enc) : List Action := initSteps e e.P.bytePreamble

/-- The common tail: function-set, display-control, entry-mode, clear, home (R276). -/
def initTail (e : Enc) (FS DC EM : Byte) : List Action :=
  cmd e (e.F.cmdFS ||| FS) ++ cmd e (e.F.cmdDC ||| DC) ++ cmd e (e.F.cmdEM ||| EM) ++ clearScript e ++ homeScript e

/-- The init script (R273). -/
def initScript (e : Enc) (FS DC EM : Byte) : List Action :=
  waitFor e.P.tPowerOn
    ++ (match e.family with
        | .nibble   => nibblePreamble e
        | .byteMode => byteModePreamble e)
    ++ initTail e FS DC EM

end Sys2Proof.Machine
end

