-- ==== Sys2Proof/Machine/State.lean ====
section
/-! DEFINITION. State: every piece of state spec/10_state.md gives the block, its ports' pending inputs and emitted records, and the state right after reset (R45). -/

namespace Sys2Proof.Machine

/-- The block's top-level state (R40). -/
inductive Phase where
  | reset
  | init
  | ready
  | busy
  | configError
  | initFailed
deriving DecidableEq, Repr

/-- What `S.cur` holds in INIT and BUSY: the init sequence, a request with its operands (R41), or the one byte of an
illegal request (R95), which R231 makes current before it answers it. -/
inductive Current where
  | initSequence
  | request (i : Instr)
  | illegal (op : Byte)
deriving DecidableEq, Repr

/-- A completion the environment delivers on the `act` port (R121). `ok` and `err` complete the outstanding action;
`stale` is the completion of an action that a reset abandoned, which the block ignores (R270). -/
inductive Completion where
  | ok
  | err
  | stale
deriving DecidableEq, Repr

/-- The levels of the inputs during one step: `rst`, `cfg` (R6, R7), and whether the receivers of `act` and of `rsp` accept
a record in that step (R6: "a record is consumed when the receiver accepts it"; log entry 10). -/
structure Pins where
  rst      : Bool
  cfg      : Straps
  actReady : Bool
  rspReady : Bool
deriving DecidableEq, Repr

/-- No constructor: the spec describes no condition that stops the block for good. CONFIG_ERROR and INIT_FAILED are
phases that the next `rst` leaves (R241, R240), and a hang is an infinite run (R251), so none of them is a fault. -/
inductive Fault where
deriving DecidableEq, Repr

/-- Why a step has no meaning. -/
inductive Refusal where
  /-- Raised by an arm of `exec` whose instruction has no meaning yet; no arm does so. Safe: the run stops. -/
  | notModelled (mnemonic : String)
deriving DecidableEq, Repr

/-- The state of one instance of the block. -/
structure State where
  /-- The build's parameter set (R8, R9); no step writes it (log entry 1). -/
  params : WfParams
  /-- `S.family` (R30). -/
  family : Family
  /-- `S.addr` (R31). -/
  addr   : BusAddr
  /-- `S.rows` (R32). -/
  rows   : Nat
  /-- `S.policy` (R33). -/
  policy : Policy
  /-- `S.EM`, the entry-mode shadow (R34 to R36). -/
  EM     : Byte
  /-- `S.DC`, the display-control shadow (R34, R35, R37). -/
  DC     : Byte
  /-- `S.FS`, the function-set shadow (R34, R35, R38). -/
  FS     : Byte
  /-- `S.BL`, the backlight bit (R39). -/
  BL     : Bool
  /-- `S.phase` (R40). -/
  phase  : Phase
  /-- `S.script` (R41). -/
  script : List Action
  /-- `S.pos`: how many actions of the script have completed (R41). -/
  pos    : Nat
  /-- `S.cur` (R41); `none` is the spec's own value (R45). -/
  cur    : Option Current
  /-- The action at `S.pos` has been issued, so its receiver has accepted it (R6), and has not completed: "at most one action
  outstanding" (R73). -/
  issued : Bool
  /-- The record the block offers on `rsp` and the receiver has not accepted yet (R6, R230). -/
  rspOut : Option Response
  /-- `S.rx`: the bytes of a request not yet complete (R42). -/
  rx     : List Byte
  /-- The `rst` input's level (R6, R270). -/
  rst    : Bool
  /-- The `cfg` straps' levels (R7). -/
  cfg    : Straps
  /-- The receiver of `act` accepts an action now (R6). -/
  actReady : Bool
  /-- The receiver of `rsp` accepts a response now (R6). -/
  rspReady : Bool
  /-- The levels of these four inputs in the coming steps; when the list ends they hold. -/
  pins   : List Pins
  /-- Request bytes the host offers on `req` and the block has not accepted, first one first (R90, R280). -/
  reqIn  : List Byte
  /-- Completions the environment will deliver, first one first; none left means none arrives (R121, R251). -/
  actIn  : List Completion
  /-- The actions the receiver of `act` has accepted so far, oldest first (R6, R73). -/
  acts   : List Action
  /-- The records the receiver of `rsp` has accepted so far, oldest first (R6, R230). -/
  rsps   : List Response
  /-- The records emitted on `log` so far, oldest first (R238). -/
  logs   : List LogRecord
  /-- The model's own counter of free draws for unspecified values (log entry 3). -/
  draws  : Nat
deriving DecidableEq, Repr

/-- What an encoder reads from the state (R128). -/
def State.enc (s : State) : Enc := ⟨s.params, s.family, s.addr, s.BL⟩

/-- All parameters. -/
def State.P (s : State) : Params := s.params.val

/-- `P_x[S.family]` (R12). -/
def State.F (s : State) : FamilyParams := s.params.val.fam s.family

/-- The straps of the block that `State.reset` describes: 95_test_vectors.md P1 (log entry 4). -/
def resetStraps : Straps := ⟨0, 0x27, 2, 0⟩

/-- The state right after reset: `rst` has been released with the straps of P1, and the init script of CFG-GK stands at
position 0 (R45, column "at INIT start"; R271 to R273). -/
def State.reset : State :=
  let p := gk Config.openEntries
  let f := p.val.nibbleFam
  { params := p
    family := .nibble
    addr   := 0x27
    rows   := 2
    policy := .swallow
    EM     := f.initEM
    DC     := f.initDC
    FS     := f.initFS
    BL     := p.val.initBL
    phase  := .init
    script := initScript ⟨p, .nibble, 0x27, p.val.initBL⟩ f.initFS f.initDC f.initEM
    pos    := 0
    cur    := some .initSequence
    issued := false
    rspOut := none
    rx     := []
    rst    := false
    cfg    := resetStraps
    actReady := true
    rspReady := true
    pins   := []
    reqIn  := []
    actIn  := []
    acts   := []
    rsps   := []
    logs   := []
    draws  := 0 }

end Sys2Proof.Machine
end

