-- ==== Sys2Proof/Machine/Flags.lean ====
section
/-! DEFINITION. The flag bits of the shadow registers (spec/42_register_ops.md R170): the block has no condition codes (R44), so these are its only flags. -/

namespace Sys2Proof.Machine

/-- Set or clear the flag `mask` of a shadow value: `v | mask`, or `v & ~mask` (R170). -/
def setFlag (v mask : Byte) (on : Bool) : Byte := if on then v ||| mask else v &&& ~~~mask

/-- `S.EM <- v`. -/
def State.setEM (s : State) (v : Byte) : State := { s with EM := v }

/-- `S.DC <- v`. -/
def State.setDC (s : State) (v : Byte) : State := { s with DC := v }

/-- `S.BL <- v` (R201, R202). -/
def State.setBL (s : State) (v : Bool) : State := { s with BL := v }

/-- The shadow write of `RegSet(EM, mask, v)` (R170). -/
def State.flagEM (s : State) (mask : Byte) (on : Bool) : State := s.setEM (setFlag s.EM mask on)

/-- The shadow write of `RegSet(DC, mask, v)` (R170). -/
def State.flagDC (s : State) (mask : Byte) (on : Bool) : State := s.setDC (setFlag s.DC mask on)

end Sys2Proof.Machine
end

