-- ==== Sys2Proof/Machine/Operands.lean ====
section
/-! DEFINITION. What the operations compute from their operands: the row and column of CURSOR_MOVE (spec/41_text_cursor.md R153, R154), the glyph slot and rows (R200), the fade rate (R206), the shift command (R181), the extended envelope (R203). -/

namespace Sys2Proof.Machine

/-- The row-offset table of a family and row count (R61, R153). -/
def rowOffsets (f : Family) (n : Nat) : List Nat :=
  if n ≤ 2 then [0x00, 0x40]
  else match f with
    | .nibble   => [0x00, 0x40, 0x14, 0x54]
    | .byteMode => [0x00, 0x20, 0x40, 0x60]

/-- `rowOffset(f, n, r)` for a clamped row `r` (R153); a row count in 1..4 never indexes past the table. -/
def rowOffset (f : Family) (n r : Nat) : Nat := (rowOffsets f n).getD (r - 1) 0

/-- "row clamped to [1, rowCount]" (R154). -/
def clampRow (n : Nat) (row : Byte) : Nat := min (max row.toNat 1) n

/-- `addr = (col - 1) + rowOffset(S.family, S.rows, r)`, an integer that does not wrap (R11, R154). -/
def cursorAddress (s : State) (row col : Byte) : Int :=
  ((col.toNat : Int) - 1) + (rowOffset s.family s.rows (clampRow s.rows row) : Int)

/-- The operand check of CURSOR_MOVE: true where it raises BAD_OPERAND (R154, R235). -/
def cursorRefused (s : State) (row col : Byte) : Bool :=
  col == 0 || decide (cursorAddress s row col > (s.F.ddramMax.toNat : Int))

/-- The set-DDRAM command byte `P_CMD_DDRAM[S.family] | addr` (R154). -/
def cursorCommand (s : State) (row col : Byte) : Byte :=
  s.F.cmdDDRAM ||| BitVec.ofInt 8 (cursorAddress s row col)

/-- `slot & 0x07` (R92, R200). -/
def slotIndex (slot : Byte) : Byte := slot &&& 0x07

/-- The set-CGRAM command byte `P_CMD_CGRAM[S.family] | (s << 3)` (R200). -/
def cgramCommand (s : State) (slot : Byte) : Byte := s.F.cmdCGRAM ||| (slotIndex slot <<< 3)

/-- The glyph rows that are sent: rows 0 to `P_GLYPH_ROWS - 1` (R200). -/
def glyphRowsSent (s : State) (g : Glyph) : List Byte := g.rows.take s.P.glyphRows

/-- A fade value byte: `mode | (rate & 0x0F)` (R205 to R207). -/
def fadeValue (mode rate : Byte) : Byte := mode ||| (rate &&& 0x0F)

/-- `ShiftCmd(d, rt)` (R181). -/
def shiftCommand (s : State) (display right : Bool) : Byte :=
  s.F.cmdShift ||| maskIf display s.F.shDisplay ||| maskIf right s.F.shRight

/-- The four bytes in the order they are sent (R66). -/
def quadBytes (q : Quad) : List Byte := [q.b1, q.b2, q.b3, q.b4]

/-- The ten bytes of the extended envelope: unlock, selector, value, re-lock (R203). -/
def envelopeBytes (s : State) (sel v : Byte) : List Byte :=
  quadBytes s.P.envUnlock ++ [sel, v] ++ quadBytes s.P.envRelock

/-- `ExtSeq(sel, v)`: each byte goes through the command path (R203). -/
def envelopeScript (s : State) (sel v : Byte) : List Action :=
  (envelopeBytes s sel v).flatMap (cmd s.enc)

end Sys2Proof.Machine
end

