-- ==== Sys2Proof/Machine/Ops.lean ====
section
/-! DEFINITION. The operations every request shares (spec/60_exceptions.md R230, R231): accepting a request, answering it, raising a request-level error. The block has no trap entry and no return from one (R243, R244): raising an error is its counterpart, and the block is READY again once the response is accepted. -/

namespace Sys2Proof.Machine

/-- The outcome of one step of this machine. -/
abbrev Result := Host.Outcome State Fault Refusal

/-- The opcode byte of what is current (R230, R233); 0x00 for the init script (R238). -/
def currentOpcode : Current → Byte
  | .initSequence => 0x00
  | .request i    => i.opcode
  | .illegal op   => op

/-- `respond(op, code)`: one record is offered on the `rsp` port (R13, R230), until its receiver accepts it (R6). -/
def State.respond (s : State) (op : Byte) (code : RspCode) : State := { s with rspOut := some ⟨op, code⟩ }

/-- One record on the `log` port (R238). -/
def State.emitLog (s : State) (r : LogRecord) : State := { s with logs := s.logs ++ [r] }

/-- `S.phase <- READY` with the sequencer empty and no response on offer (R231, R45; log entry 13). -/
def State.idle (s : State) : State :=
  { s with phase := .ready, script := [], pos := 0, cur := none, issued := false, rspOut := none }

/-- Begin a script at position 0 with nothing issued and no response on offer (R41, R231). -/
def State.start (s : State) (phase : Phase) (cur : Current) (script : List Action) : State :=
  { s with phase := phase, script := script, pos := 0, cur := some cur, issued := false, rspOut := none }

/-- Acceptance: `S.phase <- BUSY`, `S.cur`, `S.script`, `S.pos <- 0` (R231); `s` already holds the request's state writes. -/
def accept (i : Instr) (s : State) (script : List Action) : Result :=
  .next (s.start .busy (.request i) script)

/-- `raise E`: BUSY with no script and the response on offer, and nothing else (R13, R231, R243). READY follows when the
receiver accepts the response (R6; log entry 21). -/
def raise (c : Current) (code : RspCode) (s : State) : Result :=
  .next ((s.start .busy c []).respond (currentOpcode c) code)

/-- Accept a request if the family supports its opcode, else raise UNSUPPORTED (R231, R234).
`body` applies the state writes and computes the script from the state as it then stands. -/
def whenFamily (f : Family) (i : Instr) (s : State) (body : State → Result) : Result :=
  if s.family = f then body s else raise (.request i) .unsupported s

/-- `RegSet(EM, mask, v)`: the shadow is written, then the whole register is sent with the new value (R170). -/
def regSetEM (i : Instr) (mask : Byte) (on : Bool) (s : State) : Result :=
  let s' := s.flagEM mask on
  accept i s' (cmd s'.enc (s'.F.cmdEM ||| s'.EM))

/-- `RegSet(DC, mask, v)`, likewise (R170). -/
def regSetDC (i : Instr) (mask : Byte) (on : Bool) (s : State) : Result :=
  let s' := s.flagDC mask on
  accept i s' (cmd s'.enc (s'.F.cmdDC ||| s'.DC))

/-- A shift operation: `Cmd(ShiftCmd(d, rt))`, no state written (R181). -/
def shiftOp (i : Instr) (display right : Bool) (s : State) : Result :=
  accept i s (cmd s.enc (shiftCommand s display right))

/-- A backlight write: `S.BL <- v`, then one WB of that bit alone (R201, R202). -/
def backlightOp (i : Instr) (on : Bool) (s : State) : Result :=
  whenFamily .nibble i s fun s => accept i (s.setBL on) [.wb s.addr (maskIf on s.P.blMask)]

/-- An extended-mode operation: `ExtSeq(sel, v)`, no state written (R203). -/
def extendedOp (i : Instr) (sel v : Byte) (s : State) : Result :=
  whenFamily .byteMode i s fun s => accept i s (envelopeScript s sel v)

end Sys2Proof.Machine
end

