-- ==== Sys2Proof/Machine/Extended.lean ====
section
/-! DEFINITION. Custom glyphs, backlight and extended-mode operations (spec/43_glyph_backlight_extended.md). -/

namespace Sys2Proof.Machine

/-- CREATE_CHAR (R200): the set-CGRAM command, then the glyph rows as data. -/
def execCreateChar (slot : Byte) (g : Glyph) (s : State) : Result :=
  accept (.createChar slot g) s
    (cmd s.enc (cgramCommand s slot) ++ (glyphRowsSent s g).flatMap (dat s.enc))

/-- BACKLIGHT_ON (R201). -/
def execBacklightOn (s : State) : Result := backlightOp .backlightOn true s

/-- BACKLIGHT_OFF (R202). -/
def execBacklightOff (s : State) : Result := backlightOp .backlightOff false s

/-- SET_BRIGHTNESS (R204). -/
def execSetBrightness (value : Byte) (s : State) : Result :=
  extendedOp (.setBrightness value) s.P.selContrast value s

/-- FADE_OFF (R205): the rate field is 0. -/
def execFadeOff (s : State) : Result :=
  extendedOp .fadeOff s.P.selFade (fadeValue s.P.fadeModeOff 0x00) s

/-- FADE_ONCE (R206). -/
def execFadeOnce (rate : Byte) (s : State) : Result :=
  extendedOp (.fadeOnce rate) s.P.selFade (fadeValue s.P.fadeModeOnce rate) s

/-- FADE_BLINK (R207). -/
def execFadeBlink (rate : Byte) (s : State) : Result :=
  extendedOp (.fadeBlink rate) s.P.selFade (fadeValue s.P.fadeModeBlink rate) s

end Sys2Proof.Machine
end

