-- ==== Sys2Proof/Machine/Registers.lean ====
section
/-! DEFINITION. Register operations (spec/42_register_ops.md sections 2 and 3): the display-control and entry-mode flags. -/

namespace Sys2Proof.Machine

/-- DISPLAY_ON (R171). -/
def execDisplayOn (s : State) : Result := regSetDC .displayOn s.F.dcDisplay true s

/-- DISPLAY_OFF (R172). -/
def execDisplayOff (s : State) : Result := regSetDC .displayOff s.F.dcDisplay false s

/-- CURSOR_ON (R173). -/
def execCursorOn (s : State) : Result := regSetDC .cursorOn s.F.dcCursor true s

/-- CURSOR_OFF (R174). -/
def execCursorOff (s : State) : Result := regSetDC .cursorOff s.F.dcCursor false s

/-- BLINK_ON (R175). -/
def execBlinkOn (s : State) : Result := regSetDC .blinkOn s.F.dcBlink true s

/-- BLINK_OFF (R176). -/
def execBlinkOff (s : State) : Result := regSetDC .blinkOff s.F.dcBlink false s

/-- DISPLAY_LTR (R177). -/
def execDisplayLtr (s : State) : Result := regSetEM .displayLtr s.F.emLTR true s

/-- DISPLAY_RTL (R178). -/
def execDisplayRtl (s : State) : Result := regSetEM .displayRtl s.F.emLTR false s

/-- DISPLAY_SHIFT_ON (R179). -/
def execDisplayShiftOn (s : State) : Result := regSetEM .displayShiftOn s.F.emShift true s

/-- DISPLAY_SHIFT_OFF (R180). -/
def execDisplayShiftOff (s : State) : Result := regSetEM .displayShiftOff s.F.emShift false s

end Sys2Proof.Machine
end

