-- ==== Sys2Proof/Machine/Shift.lean ====
section
/-! DEFINITION. Shift operations (spec/42_register_ops.md section 4): stateless commands. -/

namespace Sys2Proof.Machine

/-- DISPLAY_SHIFT_LEFT (R182). -/
def execDisplayShiftLeft (s : State) : Result := shiftOp .displayShiftLeft true false s

/-- DISPLAY_SHIFT_RIGHT (R183). -/
def execDisplayShiftRight (s : State) : Result := shiftOp .displayShiftRight true true s

/-- CURSOR_SHIFT_LEFT (R184). -/
def execCursorShiftLeft (s : State) : Result := shiftOp .cursorShiftLeft false false s

/-- CURSOR_SHIFT_RIGHT (R185). -/
def execCursorShiftRight (s : State) : Result := shiftOp .cursorShiftRight false true s

end Sys2Proof.Machine
end

