-- ==== Sys2Proof/Machine/Text.lean ====
section
/-! DEFINITION. Text and cursor operations (spec/41_text_cursor.md): WRITE_CHAR, CLEAR, HOME, CURSOR_MOVE. -/

namespace Sys2Proof.Machine

/-- WRITE_CHAR (R150). -/
def execWriteChar (ch : Byte) (s : State) : Result := accept (.writeChar ch) s (dat s.enc ch)

/-- CLEAR (R151). -/
def execClear (s : State) : Result := accept .clear s (clearScript s.enc)

/-- HOME (R152). -/
def execHome (s : State) : Result := accept .home s (homeScript s.enc)

/-- CURSOR_MOVE (R154): BAD_OPERAND before any action, else the set-DDRAM command. -/
def execCursorMove (row col : Byte) (s : State) : Result :=
  if cursorRefused s row col then raise (.request (.cursorMove row col)) .badOperand s
  else accept (.cursorMove row col) s (cmd s.enc (cursorCommand s row col))

end Sys2Proof.Machine
end

