-- ==== Sys2Proof/Machine/Dispatch.lean ====
section
/-! DEFINITION. The dispatch from a request to its meaning: one arm for each constructor of Instr. -/

namespace Sys2Proof.Machine

def exec (i : Instr) (s : State) : Host.Outcome State Fault Refusal :=
  match i with
  | .writeChar ch => Sys2Proof.Machine.execWriteChar ch s
  | .clear => Sys2Proof.Machine.execClear s
  | .home => Sys2Proof.Machine.execHome s
  | .cursorMove row col => Sys2Proof.Machine.execCursorMove row col s
  | .displayOn => Sys2Proof.Machine.execDisplayOn s
  | .displayOff => Sys2Proof.Machine.execDisplayOff s
  | .cursorOn => Sys2Proof.Machine.execCursorOn s
  | .cursorOff => Sys2Proof.Machine.execCursorOff s
  | .blinkOn => Sys2Proof.Machine.execBlinkOn s
  | .blinkOff => Sys2Proof.Machine.execBlinkOff s
  | .displayShiftLeft => Sys2Proof.Machine.execDisplayShiftLeft s
  | .displayShiftRight => Sys2Proof.Machine.execDisplayShiftRight s
  | .cursorShiftLeft => Sys2Proof.Machine.execCursorShiftLeft s
  | .cursorShiftRight => Sys2Proof.Machine.execCursorShiftRight s
  | .displayLtr => Sys2Proof.Machine.execDisplayLtr s
  | .displayRtl => Sys2Proof.Machine.execDisplayRtl s
  | .displayShiftOn => Sys2Proof.Machine.execDisplayShiftOn s
  | .displayShiftOff => Sys2Proof.Machine.execDisplayShiftOff s
  | .createChar slot g => Sys2Proof.Machine.execCreateChar slot g s
  | .backlightOn => Sys2Proof.Machine.execBacklightOn s
  | .backlightOff => Sys2Proof.Machine.execBacklightOff s
  | .setBrightness value => Sys2Proof.Machine.execSetBrightness value s
  | .fadeOff => Sys2Proof.Machine.execFadeOff s
  | .fadeOnce rate => Sys2Proof.Machine.execFadeOnce rate s
  | .fadeBlink rate => Sys2Proof.Machine.execFadeBlink rate s

end Sys2Proof.Machine
end

