-- ==== Sys2Proof/Machine/Sequencer.lean ====
section
/-! DEFINITION. The sequencer: issuing a script's actions one at a time and handling their completions (spec/40_encoders.md R121, spec/60_exceptions.md R231, R236 to R240), and the `rst` input (spec/70_reset_and_hazards.md R270 to R273). -/

namespace Sys2Proof.Machine

/-- The opcode byte of the current request; 0x00 for the init script (R238). -/
def curOpcode (s : State) : Byte :=
  match s.cur with
  | some c => currentOpcode c
  | none   => 0x00

/-- The receiver of `rsp` accepts the response on offer, and `S.phase <- READY ; S.script <- [] ; S.pos <- 0` follows (R6,
R231); a receiver that does not accept it holds the block. -/
def offerResponse (r : Response) (s : State) : State :=
  if s.rspReady then ({ s with rsps := s.rsps ++ [r] }).idle else s

/-- The end of a script whose every action has completed: the response OK of a request is on offer (R231); the init script
is not answered, and the block is READY (R277). -/
def finishScript (s : State) : State :=
  match s.cur with
  | some (.request i) => s.respond i.opcode .ok
  | _                 => s.idle

/-- The action at `S.pos` has completed: `S.pos` advances by 1, and the script ends if it was the last (R41, R231). -/
def advance (s : State) : State :=
  let s' := { s with pos := s.pos + 1, issued := false }
  if s'.pos < s'.script.length then s' else finishScript s'

/-- A PROPAGATE abort: the response BUS_ERROR of a request is on offer and no further action is (R239); in the init script
the block enters INIT_FAILED and nothing is answered (R240; log entry 12). -/
def abortScript (s : State) : State :=
  match s.cur with
  | some (.request i) => { (s.respond i.opcode .busError) with issued := false }
  | _                 => { s with phase := .initFailed, issued := false }

/-- A WB or WBR completed with `err` (R236): the policy decides (R237 to R240). -/
def busError (a : Action) (s : State) : State :=
  match s.policy with
  | .swallow   => advance s
  | .log       => advance (s.emitLog ⟨curOpcode s, s.pos, a⟩)
  | .propagate => abortScript s

/-- The outstanding action `a` completes with the result `failed` (R121); "a WAIT never errs" (R236). -/
def completeAction (a : Action) (failed : Bool) (s : State) : State :=
  if failed && a.isWrite then busError a s else advance s

/-- Issue the action at `S.pos` on the `act` port: it is offered until the receiver accepts it (R6, R13, R73). -/
def issueAction (a : Action) (s : State) : State :=
  if s.actReady then { s with acts := s.acts ++ [a], issued := true } else s

/-- Take the next completion for the outstanding action `a`. With none the block waits, for ever if none comes (R121,
R251); the completion of an abandoned action is ignored (R270). -/
def awaitCompletion (a : Action) (s : State) : State :=
  match s.actIn with
  | []             => s
  | .ok :: rest    => completeAction a false { s with actIn := rest }
  | .err :: rest   => completeAction a true { s with actIn := rest }
  | .stale :: rest => { s with actIn := rest }

/-- One step of a running script: issue the action at `S.pos`, or await its completion (R121). -/
def runScript (s : State) : State :=
  match s.script[s.pos]? with
  | some a => if s.issued then awaitCompletion a s else issueAction a s
  | none   => finishScript s

/-- One step of BUSY: a response on offer waits for its receiver, else the script runs (R6, R231). -/
def runRequest (s : State) : State :=
  match s.rspOut with
  | some r => offerResponse r s
  | none   => runScript s

/-- Take the levels of `rst`, `cfg` and the two receivers for this step; when no change is pending they hold (R6, R7). -/
def samplePins (s : State) : State :=
  match s.pins with
  | []      => s
  | p :: ps => { s with rst := p.rst, cfg := p.cfg, actReady := p.actReady, rspReady := p.rspReady, pins := ps }

/-- The fields that R45 calls unspecified in RESET and in CONFIG_ERROR take free values (U1, U2; log entry 3). -/
def unspecify (s : State) : State :=
  { s with family := Config.freeFamily s.draws, rows := Config.freeRows s.draws, policy := Config.freePolicy s.draws
           EM := Config.freeEM s.draws, DC := Config.freeDC s.draws, FS := Config.freeFS s.draws
           BL := Config.freeBL s.draws, draws := s.draws + 1 }

/-- Drop everything in progress: the script, an action already issued, a request's bytes (R270), and a response its
receiver has not accepted (log entry 10). -/
def abandon (s : State) : State :=
  { s with script := [], pos := 0, cur := none, issued := false, rspOut := none, rx := [] }

/-- `rst` is asserted: RESET, whatever the phase was (R270); `S.addr` is unspecified too (R45). -/
def assertReset (s : State) : State :=
  { (unspecify (abandon s)) with phase := .reset, addr := Config.freeAddr s.draws }

/-- Enter INIT with legal straps: latch them, load the shadows' family defaults, start the init script (R271 to R273). -/
def enterInit (f : Family) (rows : Nat) (pol : Policy) (s : State) : State :=
  let F := s.P.fam f
  let s' := { (abandon s) with family := f, addr := s.cfg.addr, rows := rows, policy := pol
                               EM := F.initEM, DC := F.initDC, FS := F.initFS, BL := s.P.initBL }
  s'.start .init .initSequence (initScript s'.enc s'.FS s'.DC s'.EM)

/-- Enter CONFIG_ERROR: no action, no init script (R241); `S.addr` is `cfg_addr`, the rest unspecified (R45). -/
def enterConfigError (s : State) : State :=
  { (unspecify (abandon s)) with phase := .configError, addr := s.cfg.addr }

/-- `rst` is released: the straps are sampled once (R7, R271). -/
def releaseReset (s : State) : State :=
  match s.cfg.family?, s.cfg.rows?, s.cfg.policy? with
  | some f, some n, some p => enterInit f n p s
  | _,      _,      _      => enterConfigError s

end Sys2Proof.Machine
end

