-- ==== Sys2Proof/Machine/Fetch.lean ====
section
/-! DEFINITION. Accepting request bytes in READY and handing a complete request to its meaning (spec/30_encoding.md R90, R95; spec/60_exceptions.md R231, R233), and one step of the block in each phase (spec/10_state.md R40). -/

namespace Sys2Proof.Machine

/-- A byte that is no opcode: one ILLEGAL_OPCODE response, no action, no state change (R95, R233). -/
def execIllegal (op : Byte) (s : State) : Result := raise (.illegal op) .illegalOpcode s

/-- `S.rx` has just taken a byte: a complete request is executed and `S.rx` emptied; else the block waits for more (R90). -/
def receive (bs : List Byte) (s : State) : Result :=
  match decode bs with
  | .ok i _      => exec i { s with rx := [] }
  | .illegal b _ => execIllegal b { s with rx := [] }
  | .incomplete  => .next { s with rx := bs }

/-- READY: accept one byte from `req` if the host offers one, else wait (R90, R42, R251). -/
def acceptByte (s : State) : Result :=
  match s.reqIn with
  | []        => .next s
  | b :: rest => receive (s.rx ++ [b]) { s with reqIn := rest }

/-- One step with the levels of the inputs already sampled. Request bytes are accepted in READY only (R40, R280);
CONFIG_ERROR and INIT_FAILED are left by `rst` only (R245). -/
def phaseStep (s : State) : Result :=
  if s.rst then .next (assertReset s)
  else match s.phase with
    | .reset       => .next (releaseReset s)
    | .init        => .next (runScript s)
    | .ready       => acceptByte s
    | .busy        => .next (runRequest s)
    | .configError => .next s
    | .initFailed  => .next s

/-- The `status` output: the phase's code, readable at any time (R40). -/
def status (s : State) : Nat :=
  match s.phase with
  | .reset       => 0
  | .init        => 1
  | .ready       => 2
  | .busy        => 3
  | .configError => 4
  | .initFailed  => 5

/-- The ready indication of `req`: a byte on offer is taken in the coming step, unless `rst` is high in it (R6, R40, R90). -/
def reqReady (s : State) : Bool :=
  match s.phase with
  | .ready => true
  | _      => false

/-- The record on `act`: the action at `S.pos` of a running script, from the completion of the last one until the receiver
accepts it (R6, R73, R120). -/
def actOffer (s : State) : Option Action :=
  match s.phase, s.rspOut, s.issued with
  | .init, _,    false => s.script[s.pos]?
  | .busy, none, false => s.script[s.pos]?
  | _,     _,    _     => none

/-- READY with a table word's request on `req`: all but its last byte received, its last byte offered next. -/
def placeRequest (s : State) (bs : List Byte) : State :=
  { s.idle with rx := bs.dropLast, reqIn := bs.getLast?.toList ++ s.reqIn, rst := false, pins := [] }

end Sys2Proof.Machine
end

