-- ==== Sys2Proof/Machine/Step.lean ====
section
/-! DEFINITION. The step function, and the placement of an instruction where the next step fetches it. -/

namespace Sys2Proof.Machine

/-- One step of the block: sample `rst`, `cfg` and the receivers of `act` and `rsp`, then act in the phase. -/
def step (s : State) : Host.Outcome State Fault Refusal := phaseStep (samplePins s)

/-- `s` about to fetch the request of a table word: READY, with that request's bytes on `req` up to its length `L(op)`
(log entry 6 says how a program comes to run from reset). -/
def State.withFetchWord (s : State) (nbits w : Nat) : State :=
  let bs := tableBytes nbits w
  placeRequest s (bs.take (requestLength (bs.headD 0)))

end Sys2Proof.Machine
end

