-- ==== Sys2Proof/Machine/Assembler.lean ====
section
/-! DEFINITION. The assembler of spec/30_encoding.md R97 to R99: from a line of text to request bytes, refusing what R97 refuses; WRITE_STRING expands to one WRITE_CHAR for each character. -/

namespace Sys2Proof.Machine

/-- The byte an operand stands for, a number or a character whichever operand it is (log entry 19); out of 0..255 is
refused (R97). -/
def byteArg : AsmArg → Option Byte
  | .num n  => if n ≤ 255 then some (BitVec.ofNat 8 n) else none
  | .chr c  => if c ≤ 255 then some (BitVec.ofNat 8 c) else none
  | .rows _ => none

/-- The glyph of a bracketed list: exactly 8 rows (R97), each a number (log entry 19). -/
def glyphArg : AsmArg → Option Glyph
  | .rows gs =>
    match gs.mapM fun n => byteArg (.num n) with
    | some [g0, g1, g2, g3, g4, g5, g6, g7] => some ⟨g0, g1, g2, g3, g4, g5, g6, g7⟩
    | _ => none
  | _ => none

/-- Operands of format N. -/
def argsN (i : Instr) : List AsmArg → Option Instr
  | [] => some i
  | _  => none

/-- Operands of format B. -/
def argsB (f : Byte → Instr) : List AsmArg → Option Instr
  | [a] => (byteArg a).map f
  | _   => none

/-- Operands of format RC, `row` first (R98). -/
def argsRC (f : Byte → Byte → Instr) : List AsmArg → Option Instr
  | [r, c] =>
    match byteArg r, byteArg c with
    | some r', some c' => some (f r' c')
    | _,       _       => none
  | _ => none

/-- Operands of format G, `slot` first (R98). -/
def argsG (f : Byte → Glyph → Instr) : List AsmArg → Option Instr
  | [a, rows] =>
    match byteArg a, glyphArg rows with
    | some slot, some g => some (f slot g)
    | _,         _      => none
  | _ => none

/-- The request of a mnemonic and its operands (R97, R98). R100 lets an assembler emit either encoding for HOME: the model's is
0x03 (DESIGN CHOICE, log entry 19). -/
def buildRequest (m : Mnemonic) (args : List AsmArg) : Option Instr :=
  match m with
  | .writeChar         => argsB .writeChar args
  | .clear             => argsN .clear args
  | .home              => argsN .home args
  | .cursorMove        => argsRC .cursorMove args
  | .displayOn         => argsN .displayOn args
  | .displayOff        => argsN .displayOff args
  | .cursorOn          => argsN .cursorOn args
  | .cursorOff         => argsN .cursorOff args
  | .blinkOn           => argsN .blinkOn args
  | .blinkOff          => argsN .blinkOff args
  | .displayShiftLeft  => argsN .displayShiftLeft args
  | .displayShiftRight => argsN .displayShiftRight args
  | .cursorShiftLeft   => argsN .cursorShiftLeft args
  | .cursorShiftRight  => argsN .cursorShiftRight args
  | .displayLtr        => argsN .displayLtr args
  | .displayRtl        => argsN .displayRtl args
  | .displayShiftOn    => argsN .displayShiftOn args
  | .displayShiftOff   => argsN .displayShiftOff args
  | .createChar        => argsG .createChar args
  | .backlightOn       => argsN .backlightOn args
  | .backlightOff      => argsN .backlightOff args
  | .setBrightness     => argsB .setBrightness args
  | .fadeOff           => argsN .fadeOff args
  | .fadeOnce          => argsB .fadeOnce args
  | .fadeBlink         => argsB .fadeBlink args

/-- The requests of one line; `none` where the assembler refuses it (R97, R99). -/
def assemble : AsmLine → Option (List Instr)
  | .request m args    => (buildRequest m args).map fun i => [i]
  | .writeString codes => codes.mapM fun c => (byteArg (.chr c)).map Instr.writeChar

/-- The request bytes of a list of requests. -/
def encodeAll (is : List Instr) : List Byte := is.flatMap encode

/-- The mnemonics as R94 spells them. -/
def mnemonicTable : List (Mnemonic × String) :=
  [(.writeChar, "WRITE_CHAR"), (.clear, "CLEAR"), (.home, "HOME"), (.cursorMove, "CURSOR_MOVE"),
   (.displayOn, "DISPLAY_ON"), (.displayOff, "DISPLAY_OFF"), (.cursorOn, "CURSOR_ON"),
   (.cursorOff, "CURSOR_OFF"), (.blinkOn, "BLINK_ON"), (.blinkOff, "BLINK_OFF"),
   (.displayShiftLeft, "DISPLAY_SHIFT_LEFT"), (.displayShiftRight, "DISPLAY_SHIFT_RIGHT"),
   (.cursorShiftLeft, "CURSOR_SHIFT_LEFT"), (.cursorShiftRight, "CURSOR_SHIFT_RIGHT"),
   (.displayLtr, "DISPLAY_LTR"), (.displayRtl, "DISPLAY_RTL"), (.displayShiftOn, "DISPLAY_SHIFT_ON"),
   (.displayShiftOff, "DISPLAY_SHIFT_OFF"), (.createChar, "CREATE_CHAR"), (.backlightOn, "BACKLIGHT_ON"),
   (.backlightOff, "BACKLIGHT_OFF"), (.setBrightness, "SET_BRIGHTNESS"), (.fadeOff, "FADE_OFF"),
   (.fadeOnce, "FADE_ONCE"), (.fadeBlink, "FADE_BLINK")]

/-- The mnemonic a word spells. -/
def mnemonicOf (word : List Char) : Option Mnemonic :=
  (mnemonicTable.find? fun e => e.2.toList == word).map Prod.fst

/-- A token of a line. -/
inductive Token where
  | word (cs : List Char)
  | num  (n : Nat)
  | chr  (code : Nat)
  | str  (codes : List Nat)
  | comma
  | openRows
  | closeRows
deriving DecidableEq, Repr

/-- Where in a token the reader stands; the characters read so far are held last one first. -/
inductive LexState where
  | start
  | word (rev : List Char)
  | quote
  | quoted (code : Nat)
  | str (rev : List Nat)
  | comment
deriving DecidableEq, Repr

/-- The value of a digit in a base up to 16. -/
def digitValue (base : Nat) (c : Char) : Option Nat :=
  let v :=
    if '0' ≤ c ∧ c ≤ '9' then c.toNat - '0'.toNat
    else if 'a' ≤ c ∧ c ≤ 'f' then c.toNat - 'a'.toNat + 10
    else if 'A' ≤ c ∧ c ≤ 'F' then c.toNat - 'A'.toNat + 10
    else base
  if v < base then some v else none

/-- A digit string read left to right. -/
def digitsValue (base : Nat) : Nat → List Char → Option Nat
  | acc, []      => some acc
  | acc, c :: cs =>
    match digitValue base c with
    | some v => digitsValue base (acc * base + v) cs
    | none   => none

/-- A word is a decimal number, a `0x` hexadecimal number, or a name (R97). -/
def wordToken (rev : List Char) : Option Token :=
  match rev.reverse with
  | []             => none
  | '0' :: 'x' :: [] => none
  | '0' :: 'x' :: ds => (digitsValue 16 0 ds).map .num
  | c :: cs        => if c.isDigit then (digitsValue 10 0 (c :: cs)).map .num else some (.word (c :: cs))

/-- The code of a character of the source text. DESIGN CHOICE (log entry 19): R97 and R99 name no code set, and the model
takes the Unicode code point; the codes 0x48, 0x49 of 'H', 'I' (R99, R101) agree with it. -/
def charCode (c : Char) : Nat := c.toNat

/-- A character between tokens; `;` starts a comment (R97), blanks and tabs separate (log entry 19). -/
def lexStart (c : Char) : Option (List Token × LexState) :=
  if c = ' ' ∨ c = '\t' then some ([], .start)
  else if c = ';' then some ([], .comment)
  else if c = ',' then some ([.comma], .start)
  else if c = '[' then some ([.openRows], .start)
  else if c = ']' then some ([.closeRows], .start)
  else if c = '\'' then some ([], .quote)
  else if c = '"' then some ([], .str [])
  else if c.isAlphanum ∨ c = '_' then some ([], .word [c])
  else none

/-- One character of a line; inside quotes it stands for its code, the quote itself after an opening `'` too, and nothing is
an escape (R97, R99; log entry 19). -/
def lexChar (st : LexState) (c : Char) : Option (List Token × LexState) :=
  match st with
  | .start       => lexStart c
  | .word rev    =>
    if c.isAlphanum ∨ c = '_' then some ([], .word (c :: rev))
    else match wordToken rev, lexStart c with
      | some t, some (ts, st') => some (t :: ts, st')
      | _,      _              => none
  | .quote       => some ([], .quoted (charCode c))
  | .quoted code => if c = '\'' then some ([.chr code], .start) else none
  | .str rev     => if c = '"' then some ([.str rev.reverse], .start) else some ([], .str (charCode c :: rev))
  | .comment     => some ([], .comment)

/-- The tokens of a line. -/
def lexLine : LexState → List Char → Option (List Token)
  | .start,    [] => some []
  | .comment,  [] => some []
  | .word rev, [] => (wordToken rev).map fun t => [t]
  | _,         [] => none
  | st, c :: cs =>
    match lexChar st c with
    | some (ts, st') => (lexLine st' cs).map (ts ++ ·)
    | none           => none

/-- Where in the operand list the reader stands. -/
inductive ArgState where
  | expectArg
  | afterArg
  | expectRow (acc : List Nat)
  | afterRow (acc : List Nat)
deriving DecidableEq, Repr

/-- The operands, separated by commas, rows in brackets (R97). DESIGN CHOICE (log entry 19): outside the brackets an operand
is a number or a character `'c'`; inside them a row is a number only, since R97 does not say whether a row may be a
character. -/
def parseArgs : ArgState → List Token → Option (List AsmArg)
  | .afterArg,      []               => some []
  | .expectArg,     .num n :: ts     => (parseArgs .afterArg ts).map (.num n :: ·)
  | .expectArg,     .chr c :: ts     => (parseArgs .afterArg ts).map (.chr c :: ·)
  | .expectArg,     .openRows :: ts  => parseArgs (.expectRow []) ts
  | .expectRow acc, .num n :: ts     => parseArgs (.afterRow (acc ++ [n])) ts
  | .afterRow acc,  .comma :: ts     => parseArgs (.expectRow acc) ts
  | .afterRow acc,  .closeRows :: ts => (parseArgs .afterArg ts).map (.rows acc :: ·)
  | .afterArg,      .comma :: ts     => parseArgs .expectArg ts
  | _,              _                => none

/-- One line of source (R97); an empty line and one that is only a comment hold no request (log entry 19). -/
def parseLine (cs : List Char) : Option (Option AsmLine) :=
  match lexLine .start cs with
  | none      => none
  | some []   => some none
  | some [.word w] => (mnemonicOf w).map fun m => some (.request m [])
  | some [.word w, .str codes] => if w = "WRITE_STRING".toList then some (some (.writeString codes)) else none
  | some (.word w :: ts) =>
    match mnemonicOf w, parseArgs .expectArg ts with
    | some m, some args => some (some (.request m args))
    | _,      _         => none
  | some _ => none

/-- The bytes one line assembles to; `none` where the assembler refuses the line (R97, R99). -/
def assembleLine (cs : List Char) : Option (List Byte) :=
  match parseLine cs with
  | none          => none
  | some none     => some []
  | some (some l) => (assemble l).map encodeAll

/-- The bytes of a program, one request a line (R97); one refused line refuses it whole (log entry 19). -/
def assembleProgram (lines : List (List Char)) : Option (List Byte) :=
  (lines.mapM assembleLine).map List.flatten

end Sys2Proof.Machine
end

