-- ==== Sys2Proof/Safety.lean ====
section
/-! DEFINITION. The terms claims use: the end of a run and the hangs (spec/70_reset_and_hazards.md R291, spec/60_exceptions.md R251), what a run of a script leaves (R237 to R240), and the machine's invariant. -/

namespace Sys2Proof.Safety

open Sys2Proof.Machine

/-- `k` steps of the machine. -/
def run (k : Nat) (s : State) : Result := Host.Core.run Sys2Proof.core k s

/-- `rst` is low and no change of the inputs' levels is pending. -/
def PinsQuiet (s : State) : Prop := s.rst = false ∧ s.pins = []

/-- The receivers of `act` and of `rsp` accept what they are offered (R6). -/
def ReceiversReady (s : State) : Prop := s.actReady = true ∧ s.rspReady = true

/-- The level of `rst` in the coming step (R6). -/
def rstNow (s : State) : Bool :=
  match s.pins with
  | []     => s.rst
  | p :: _ => p.rst

/-- The levels of the straps in the coming step (R7). -/
def cfgNow (s : State) : Straps :=
  match s.pins with
  | []     => s.cfg
  | p :: _ => p.cfg

/-- The receiver of `act` accepts an action in the coming step (R6). -/
def actReadyNow (s : State) : Bool :=
  match s.pins with
  | []     => s.actReady
  | p :: _ => p.actReady

/-- The receiver of `rsp` accepts a response in the coming step (R6). -/
def rspReadyNow (s : State) : Bool :=
  match s.pins with
  | []     => s.rspReady
  | p :: _ => p.rspReady

/-- The state with the inputs' levels of the coming step and nothing else changed. -/
def sampled (s : State) : State :=
  { s with rst := rstNow s, cfg := cfgNow s, actReady := actReadyNow s, rspReady := rspReadyNow s, pins := s.pins.tail }

/-- A script runs: INIT, or BUSY while no response is on offer (R40, R231). -/
def Running (s : State) : Prop := s.phase = .init ∨ (s.phase = .busy ∧ s.rspOut = none)

/-- The state of an accepted request: BUSY at position 0 of its script, no response on offer (R231); `s` holds the
request's state writes. -/
def accepted (i : Instr) (script : List Action) (s : State) : State :=
  { s with phase := .busy, cur := some (.request i), script := script, pos := 0, issued := false, rspOut := none }

/-- The state of a request-level error: BUSY with its response on offer and no script, nothing else (R231, R243). -/
def refused (c : Current) (op : Byte) (code : RspCode) (s : State) : State :=
  { s with phase := .busy, cur := some c, script := [], pos := 0, issued := false, rspOut := some ⟨op, code⟩ }

/-- The state once a response is accepted: one record more, READY with the sequencer empty (R231, R45; log entry 13). -/
def answered (op : Byte) (code : RspCode) (s : State) : State :=
  { s with phase := .ready, cur := none, script := [], pos := 0, issued := false, rspOut := none
           rsps := s.rsps ++ [⟨op, code⟩] }

/-- READY, nothing received of a request, no script, no response on offer. -/
def Idle (s : State) : Prop :=
  s.phase = .ready ∧ s.rx = [] ∧ s.script = [] ∧ s.pos = 0 ∧ s.cur = none ∧ s.issued = false ∧ s.rspOut = none

/-- The display-control operations: request, flag, set or clear (R171 to R176). -/
def dcOps : List (Instr × (FamilyParams → Byte) × Bool) :=
  [(.displayOn, FamilyParams.dcDisplay, true), (.displayOff, FamilyParams.dcDisplay, false),
   (.cursorOn, FamilyParams.dcCursor, true), (.cursorOff, FamilyParams.dcCursor, false),
   (.blinkOn, FamilyParams.dcBlink, true), (.blinkOff, FamilyParams.dcBlink, false)]

/-- The entry-mode operations (R177 to R180). -/
def emOps : List (Instr × (FamilyParams → Byte) × Bool) :=
  [(.displayLtr, FamilyParams.emLTR, true), (.displayRtl, FamilyParams.emLTR, false),
   (.displayShiftOn, FamilyParams.emShift, true), (.displayShiftOff, FamilyParams.emShift, false)]

/-- The state a request is accepted into, or `s` itself where there is no next state. -/
def after (i : Instr) (s : State) : State :=
  match exec i s with
  | .next t => t
  | _       => s

/-- The phases in which R30 defines `S.family`. -/
def Configured (s : State) : Prop :=
  s.phase = .init ∨ s.phase = .ready ∨ s.phase = .busy ∨ s.phase = .initFailed

/-- "A run ends (the block is quiescent)" (R291). -/
def Quiescent (s : State) : Prop :=
  (s.phase = .ready ∧ s.rx = [] ∧ s.reqIn = []) ∨ s.phase = .configError ∨ s.phase = .initFailed

/-- An action is outstanding and no completion arrives (R251). -/
def HungOnAction (s : State) : Prop :=
  Running s ∧ s.issued = true ∧ s.pos < s.script.length ∧ s.actIn = []

/-- The host stopped partway through a request (R251, R42). -/
def HungOnRequest (s : State) : Prop := s.phase = .ready ∧ s.rx ≠ [] ∧ s.reqIn = []

/-- An action's completion is a bus error: a write that completed with `err` (R236). -/
def fails (a : Action) (c : Completion) : Bool := a.isWrite && c == .err

/-- The log records of a script under LOG, from position `pos` on: one for each failed write, in order (R238). -/
def failureRecords (op : Byte) : Nat → List Action → List Completion → List LogRecord
  | pos, a :: as, c :: cs => (if fails a c then [⟨op, pos, a⟩] else []) ++ failureRecords op (pos + 1) as cs
  | _,   _,       _       => []

/-- The index of the first failed write, if any (R239). -/
def firstFailure : List Action → List Completion → Option Nat
  | a :: as, c :: cs => if fails a c then some 0 else (firstFailure as cs).map (· + 1)
  | _,       _       => none

/-- The expander byte of a WB. -/
def expanderByte : Action → Option Byte
  | .wb _ v => some v
  | _       => none

/-- The last expander byte written, none before the first (R43; U4 of 93_implementation_defined.md): the block does not
hold it, and a failed write leaves the device's latch unknown (I8). -/
def lastExpanderByte (s : State) : Option Byte := (s.acts.filterMap expanderByte).getLast?

/-- The bits of an expander byte that carry something: nibble, RS, EN, BL (R64). -/
def expanderBits (p : Params) : Byte := ((0x0F : Byte) <<< p.nibShift) ||| p.rsMask ||| p.enMask ||| p.blMask

/-- An action the block may emit in a state: WB in the nibble family and WBR in the byte-mode family, to `S.addr`, the
mode-select byte one of two, no zero wait (R14, R60, R120); a WB carries `S.BL` and no unused bit (R39, R64, R122). -/
def LegalAction (s : State) : Action → Prop
  | .wb a v    => s.family = .nibble ∧ a = s.addr ∧ v &&& s.P.blMask = maskIf s.BL s.P.blMask
                    ∧ v &&& ~~~(expanderBits s.P) = 0
  | .wbr a r _ => s.family = .byteMode ∧ a = s.addr ∧ (r = s.P.modeCmd ∨ r = s.P.modeData)
  | .wait t    => 1 ≤ t

/-- The invariant that every step keeps. -/
structure Inv (s : State) : Prop where
  /-- R32. -/
  rows_legal : Configured s → 1 ≤ s.rows ∧ s.rows ≤ 4
  /-- "it stays so for the lifetime of the instance" (R38). -/
  fs_init : Configured s → s.FS = s.F.initFS
  /-- The other bits of `S.EM` are "written only at init" (R36). -/
  em_other_bits : Configured s → s.EM &&& ~~~(s.F.emLTR ||| s.F.emShift) = s.F.initEM &&& ~~~(s.F.emLTR ||| s.F.emShift)
  /-- The other bits of `S.DC` are "written only at init" (R37). -/
  dc_other_bits : Configured s →
    s.DC &&& ~~~(s.F.dcDisplay ||| s.F.dcCursor ||| s.F.dcBlink)
      = s.F.initDC &&& ~~~(s.F.dcDisplay ||| s.F.dcCursor ||| s.F.dcBlink)
  /-- In the byte-mode family nothing writes `S.BL` after init (R39). -/
  bl_byte_mode : Configured s → s.family = .byteMode → s.BL = s.P.initBL
  /-- `S.rx` is "empty in every phase but READY" (R42). -/
  rx_only_ready : s.phase ≠ .ready → s.rx = []
  /-- In READY, `S.rx` is the start of a request that is not complete (R42, R90). -/
  rx_incomplete : decode s.rx = .incomplete
  /-- No script outside INIT, BUSY and INIT_FAILED (R45). -/
  no_script : s.phase = .reset ∨ s.phase = .ready ∨ s.phase = .configError →
    s.script = [] ∧ s.pos = 0 ∧ s.cur = none
  /-- An action is outstanding only while a script runs (R73). -/
  issued_running : s.issued = true → Running s
  /-- A running script has an action left (R41). -/
  pos_in_script : Running s → s.pos < s.script.length
  /-- A response is on offer in BUSY only, with the opcode of the current request (R230, R231). -/
  rsp_busy : ∀ r, s.rspOut = some r → s.phase = .busy ∧ r.op = curOpcode s
  /-- INIT runs the init script of the state (R45, R273). -/
  init_script : s.phase = .init → s.cur = some .initSequence ∧ s.script = initScript s.enc s.FS s.DC s.EM
  /-- In BUSY the script has at most 90 actions (R41), and while it runs it is of a request the family supports (R234). -/
  busy_request : s.phase = .busy → s.script.length ≤ 90
    ∧ (s.rspOut = none → ∃ i, s.cur = some (.request i) ∧ i.supported s.family = true)
  /-- Every action of the script is one the block may emit. -/
  legal_script : ∀ a ∈ s.script, LegalAction s a
  /-- No zero wait was ever emitted (R14, R120). -/
  legal_waits : ∀ t, Action.wait t ∈ s.acts → 1 ≤ t

end Sys2Proof.Safety
end

