-- ==== Sys2Proof/Certificates/Slice0/Obligations.lean ====
section
/-! DEFINITION. The statements for the provers, in the order of OBLIGATIONS.json. -/

open Sys2Proof Sys2Proof.Machine Sys2Proof.Safety

/-! ## Encoding -/

/-- R91, R92, R94, R96: no bit of a request is dropped by encoding, whatever follows it in the stream. -/
def Obligations.DecodeEncodeAgree : Prop :=
  ∀ (i : Instr) (rest : List Byte),
    decode (encode i ++ rest) = .ok i rest ∧ (encode i).length = requestLength i.opcode

/-- The other direction: a byte list that decodes starts with the encoding of what it decodes to (R91, R94). -/
def Obligations.EncodeDecodeAgree : Prop :=
  ∀ (bs rest : List Byte) (i : Instr), decode bs = .ok i rest → bs = encode i ++ rest

/-- R95 and R233: the 231 bytes outside the map, 0x00 and 0xFF among them, are complete requests answered
ILLEGAL_OPCODE with no action and no state change; the next byte starts the next request; no operand value is illegal.
The model's choice: the byte takes one step (log entry 8) and the acceptance of its response another (log entries 10, 21). -/
def Obligations.IllegalOpcodeByteIsAnswered : Prop :=
  ((List.range 256).filter fun n => !isOpcode (BitVec.ofNat 8 n)).length = 231
    ∧ isOpcode 0x00 = false ∧ isOpcode 0xFF = false
    ∧ (∀ (b : Byte) (rest : List Byte), isOpcode b = false → decode (b :: rest) = .illegal b rest)
    ∧ (∀ (b c : Byte) (rest r : List Byte), isOpcode b = true → decode (b :: rest) ≠ .illegal c r)
    ∧ (∀ (s : State) (b : Byte) (rest : List Byte),
        PinsQuiet s → Idle s → s.reqIn = b :: rest → isOpcode b = false →
        step s = .next (refused (.illegal b) b .illegalOpcode { s with reqIn := rest })
          ∧ (s.rspReady = true → run 2 s = .next { s with reqIn := rest, rsps := s.rsps ++ [⟨b, .illegalOpcode⟩] }))

/-- The encodings R101 writes out, each with its decoding, and its illegal byte, which is seen BUSY with its response on
offer (log entry 21). -/
def Obligations.SpecEncodingsDecode : Prop :=
  (∀ p ∈ ([(.writeChar 0x48, [0x01, 0x48]), (.clear, [0x02]), (.home, [0x03]), (.cursorMove 2 1, [0x04, 0x02, 0x01]),
          (.displayOn, [0x10]), (.cursorShiftRight, [0x23]), (.displayShiftOn, [0x32]),
          (.createChar 3 ⟨0x0E, 0x11, 0x11, 0x11, 0x1F, 0x1B, 0x1B, 0x00⟩,
            [0x40, 0x03, 0x0E, 0x11, 0x11, 0x11, 0x1F, 0x1B, 0x1B, 0x00]),
          (.backlightOff, [0x51]), (.setBrightness 128, [0x60, 0x80]), (.fadeOnce 15, [0x71, 0x0F])]
          : List (Instr × List Byte)),
    encode p.1 = p.2 ∧ decode p.2 = .ok p.1 [])
    ∧ decode [0xFF] = .illegal 0xFF [] ∧ ∀ s : State, execIllegal 0xFF s = .next (refused (.illegal 0xFF) 0xFF .illegalOpcode s)

/-- R96: a stream of whole requests splits into exactly those requests, with nothing left over. -/
def Obligations.StreamSplitsIntoItsRequests : Prop :=
  ∀ is : List Instr, decodeStream is.length (encodeAll is) = (is.map Sum.inl, [])

/-! ## The step -/

/-- R90, R231: in READY the last byte of a request hands it to its meaning with `S.rx` empty, and a byte that leaves the
request incomplete is appended to `S.rx`. The model's choice: one byte in each step (log entry 8). -/
def Obligations.StepRunsTheDecodedRequest : Prop :=
  ∀ (s : State) (b : Byte) (rest : List Byte), PinsQuiet s → s.phase = .ready → s.reqIn = b :: rest →
    (∀ i r, decode (s.rx ++ [b]) = .ok i r → step s = exec i { s with rx := [], reqIn := rest })
    ∧ (decode (s.rx ++ [b]) = .incomplete → step s = .next { s with rx := s.rx ++ [b], reqIn := rest })

/-- R90: the bytes of a request, offered one after the other, reach exactly the meaning of that request. That this takes as
many steps as the request has bytes is the model's choice (log entry 8): R90 does not fix how many bytes a step takes. -/
def Obligations.RequestBytesReachTheirMeaning : Prop :=
  ∀ (s : State) (i : Instr) (rest : List Byte),
    PinsQuiet s → s.phase = .ready → s.rx = [] → s.reqIn = encode i ++ rest →
    run (encode i).length s = exec i { s with reqIn := rest }

/-- R242, R243, R251: no step faults and none is refused; every error is an outcome the block goes on from. -/
def Obligations.StepAlwaysAnswers : Prop := ∀ s : State, ∃ t, step s = .next t

/-- The invariant holds right after reset; the straps, the parameter set and the receivers' levels there are the model's
choice (log entries 2, 4, 10). -/
def Obligations.InvariantHoldsAtReset : Prop := Inv State.reset

/-- The invariant is kept by every step, from every state that meets it. What it says of a response on offer rests on log
entries 10 and 21. -/
def Obligations.StepKeepsInvariant : Prop := ∀ s t : State, Inv s → step s = .next t → Inv t

/-- R120: the kinds of action each family emits, the address they carry, and no zero wait. -/
def Obligations.EmittedActionsAreLegal : Prop :=
  ∀ (s t : State) (a : Action), Inv s → step s = .next t → t.acts = s.acts ++ [a] → LegalAction s a

/-- R6, R73: one step issues at most the one action at `S.pos`, only when it is on offer and its receiver accepts it, and
emits at most one response, the one on offer, and only when its receiver accepts it; at most one log record; nothing emitted
is ever taken back. The grain of a step is the model's choice (log entries 7, 21). -/
def Obligations.OutputsGrowOneAtATime : Prop :=
  ∀ s t : State, step s = .next t →
    (t.acts = s.acts ∨
      ∃ a, t.acts = s.acts ++ [a] ∧ actOffer s = some a ∧ actReadyNow s = true ∧ s.script[s.pos]? = some a
        ∧ s.issued = false ∧ t.issued = true ∧ t.pos = s.pos)
    ∧ (t.rsps = s.rsps ∨
      ∃ r, t.rsps = s.rsps ++ [r] ∧ s.rspOut = some r ∧ rspReadyNow s = true ∧ t.rspOut = none ∧ t.phase = .ready)
    ∧ (t.logs = s.logs ∨ ∃ r, t.logs = s.logs ++ [r])

/-- R41: while a script runs on, its position stays or advances by exactly 1, and it advances exactly by taking a
completion for the outstanding action (in a step of its own: log entry 7). -/
def Obligations.PositionAdvancesByCompletion : Prop :=
  ∀ s t : State, (s.phase = .busy ∨ s.phase = .init) → t.phase = s.phase → step s = .next t →
    (t.pos = s.pos ∨
      (t.pos = s.pos + 1 ∧ s.issued = true ∧ t.issued = false ∧ ∃ c, s.actIn = c :: t.actIn ∧ c ≠ .stale))

/-! ## Reset, straps, phases -/

/-- R270: asserting `rst` in any phase abandons everything in progress and emits and accepts nothing; a completion of an
abandoned action that still arrives is ignored. That a response on offer is abandoned too is DEDUCED (log entry 10). -/
def Obligations.ResetAbandonsEverything : Prop :=
  (∀ s : State, rstNow s = true → ∃ t, step s = .next t ∧ t.phase = .reset
      ∧ t.rx = [] ∧ t.script = [] ∧ t.pos = 0 ∧ t.cur = none ∧ t.issued = false ∧ t.rspOut = none
      ∧ t.acts = s.acts ∧ t.rsps = s.rsps ∧ t.logs = s.logs ∧ t.reqIn = s.reqIn ∧ t.params = s.params)
    ∧ (∀ (s : State) (rest : List Completion), PinsQuiet s → Running s →
      s.issued = true → s.pos < s.script.length → s.actIn = .stale :: rest →
      step s = .next { s with actIn := rest })

/-- R271, R272: on the release of `rst` the straps are sampled; legal straps are latched, the shadows take their family
defaults and the init script starts; an invalid strap leads to CONFIG_ERROR. -/
def Obligations.ReleaseSamplesTheStraps : Prop :=
  ∀ s : State, rstNow s = false → s.phase = .reset →
    ∃ t, step s = .next t ∧ t.acts = s.acts ∧ t.rsps = s.rsps ∧ t.logs = s.logs ∧ t.reqIn = s.reqIn ∧ t.rx = []
      ∧ t.rspOut = none ∧ t.params = s.params ∧ t.addr = (cfgNow s).addr
      ∧ ((cfgNow s).family.toNat ≤ 1 ∧ 1 ≤ (cfgNow s).rows.toNat ∧ (cfgNow s).rows.toNat ≤ 4
            ∧ (cfgNow s).policy.toNat ≤ 2 →
          t.phase = .init
          ∧ t.family = (if (cfgNow s).family = 0 then .nibble else .byteMode)
          ∧ t.rows = (cfgNow s).rows.toNat
          ∧ t.policy = (if (cfgNow s).policy = 0 then .swallow else if (cfgNow s).policy = 1 then .log else .propagate)
          ∧ t.EM = (s.P.fam t.family).initEM ∧ t.DC = (s.P.fam t.family).initDC
          ∧ t.FS = (s.P.fam t.family).initFS ∧ t.BL = s.P.initBL
          ∧ t.script = initScript t.enc t.FS t.DC t.EM ∧ t.pos = 0 ∧ t.cur = some .initSequence ∧ t.issued = false)
      ∧ (¬((cfgNow s).family.toNat ≤ 1 ∧ 1 ≤ (cfgNow s).rows.toNat ∧ (cfgNow s).rows.toNat ≤ 4
            ∧ (cfgNow s).policy.toNat ≤ 2) →
          t.phase = .configError ∧ t.script = [] ∧ t.pos = 0 ∧ t.cur = none)

/-- R30 to R33, R38: what the release of `rst` latched changes only through `rst`. -/
def Obligations.ConfigurationIsFixedBetweenResets : Prop :=
  ∀ s t : State, rstNow s = false → s.phase ≠ .reset → step s = .next t →
    t.params = s.params ∧ t.family = s.family ∧ t.addr = s.addr ∧ t.rows = s.rows ∧ t.policy = s.policy ∧ t.FS = s.FS

/-- R245, R241, R240: CONFIG_ERROR and INIT_FAILED are left only by `rst`; until then the block emits and accepts nothing. -/
def Obligations.HaltedPhasesWaitForReset : Prop :=
  ∀ s : State, (s.phase = .configError ∨ s.phase = .initFailed) → rstNow s = false →
    step s = .next (sampled s)

/-- R280: request bytes are held, not lost, outside READY; in CONFIG_ERROR and INIT_FAILED the hold lasts until `rst`. -/
def Obligations.RequestBytesHeldOutsideReady : Prop :=
  ∀ s t : State, s.phase ≠ .ready → step s = .next t →
    t.reqIn = s.reqIn ∧ (s.rx = [] → t.rx = [])
      ∧ ((s.phase = .configError ∨ s.phase = .initFailed) → rstNow s = false → t.phase = s.phase)

/-- R251: a hung action and a partial request hold for ever while `rst` stays low, and `rst` ends either. -/
def Obligations.HangsLastUntilReset : Prop :=
  (∀ (s : State) (k : Nat), PinsQuiet s → (HungOnAction s ∨ HungOnRequest s) → run k s = .next s)
    ∧ (∀ s : State, (HungOnAction s ∨ HungOnRequest s) → rstNow s = true → ∃ t, step s = .next t ∧ t.phase = .reset
        ∧ t.issued = false ∧ t.rx = [])

/-- R291: a quiescent block stays as it is until an input changes. -/
def Obligations.QuiescentBlockStaysQuiescent : Prop :=
  ∀ (s : State) (k : Nat), PinsQuiet s → Quiescent s → run k s = .next s

/-- R128: while a script runs, nothing an encoder reads changes, so the bytes at acceptance and at emission agree. -/
def Obligations.EncoderInputsFixedWhileRunning : Prop :=
  ∀ s t : State, (s.phase = .busy ∨ s.phase = .init) → rstNow s = false → step s = .next t →
    t.enc = s.enc ∧ t.EM = s.EM ∧ t.DC = s.DC ∧ t.FS = s.FS ∧ (t.phase = s.phase → t.script = s.script ∧ t.cur = s.cur)

/-- R40: the codes of the phases on `status`. -/
def Obligations.StatusShowsThePhase : Prop :=
  ∀ s : State,
    (s.phase = .reset → status s = 0) ∧ (s.phase = .init → status s = 1) ∧ (s.phase = .ready → status s = 2)
      ∧ (s.phase = .busy → status s = 3) ∧ (s.phase = .configError → status s = 4) ∧ (s.phase = .initFailed → status s = 5)

/-! ## Encoders and the init script -/

/-- R126, R127, R125: the two paths dispatch on the family, and a byte-mode write is one WBR with its settle wait. -/
def Obligations.PathsDispatchOnFamily : Prop :=
  ∀ (e : Enc) (b : Byte),
    (e.family = .nibble → cmd e b = nibByte e b false ∧ dat e b = nibByte e b true)
      ∧ (e.family = .byteMode →
          cmd e b = [.wbr e.addr e.P.modeCmd b, .wait e.P.tSettle] ∧ dat e b = [.wbr e.addr e.P.modeData b, .wait e.P.tSettle])

/-- R129: six WBs for each byte of the nibble family, three for the low nibble and then three for the high one, with four
WAITs when the step wait is not 0; one WBR and its settle wait of at least 1 ms in the byte-mode family. R123: the step
waits of a nibble write stand between its first and second and between its second and third WB, and nowhere else, "after
the third step or between the two nibbles of a byte". -/
def Obligations.LogicalByteActionCounts : Prop :=
  let write : Enc → Nibble → Bool → List Action := fun e n rs =>
    let lo := Action.wb e.addr (xb e n rs false)
    let hi := Action.wb e.addr (xb e n rs true)
    if e.P.tNibStep = 0 then [lo, hi, lo] else [lo, .wait e.P.tNibStep, hi, .wait e.P.tNibStep, lo]
  (∀ (e : Enc) (n : Nibble) (rs : Bool), nibWrite e n rs = write e n rs)
    ∧ ∀ (e : Enc) (b : Byte), ∀ p ∈ [(cmd e b, false), (dat e b, true)],
    (e.family = .nibble →
      p.1 = write e (lowNibble b) p.2 ++ write e (highNibble b) p.2 ∧
      p.1.filterMap expanderByte
          = [xb e (lowNibble b) p.2 false, xb e (lowNibble b) p.2 true, xb e (lowNibble b) p.2 false,
             xb e (highNibble b) p.2 false, xb e (highNibble b) p.2 true, xb e (highNibble b) p.2 false]
        ∧ p.1.length = 6 + (if e.P.tNibStep = 0 then 0 else 4)
        ∧ ∀ a ∈ p.1, (∃ v, a = .wb e.addr v) ∨ a = .wait e.P.tNibStep)
      ∧ (e.family = .byteMode → ∃ r, p.1 = [.wbr e.addr r b, .wait e.P.tSettle] ∧ 1000 ≤ e.P.tSettle)

/-- R130: in the six WBs of a nibble byte RS, EN, BL and the nibble stand where the parameters put them, the low nibble
in the first three; every other bit is 0 (R64); and "each expander byte decodes uniquely back to (n, rs, en, BL)". -/
def Obligations.NibbleByteFraming : Prop :=
  (∀ (e : Enc) (b : Byte) (rs : Bool), ((nibByte e b rs).filterMap expanderByte).length = 6)
    ∧ (∀ (e : Enc) (b : Byte) (rs : Bool) (v : Byte) (k : Nat),
      ((nibByte e b rs).filterMap expanderByte)[k]? = some v →
        v &&& e.P.rsMask = maskIf rs e.P.rsMask
          ∧ v &&& e.P.enMask = maskIf (k == 1 || k == 4) e.P.enMask
          ∧ v &&& e.P.blMask = maskIf e.BL e.P.blMask
          ∧ (v >>> e.P.nibShift) &&& (0x0F : Byte) = (if k < 3 then b &&& (0x0F : Byte) else b >>> 4)
          ∧ v &&& ~~~(expanderBits e.P) = 0)
    ∧ (∀ (e : Enc) (n n' : Nibble) (rs rs' en en' bl bl' : Bool),
      xb { e with BL := bl } n rs en = xb { e with BL := bl' } n' rs' en' → n = n' ∧ rs = rs' ∧ en = en' ∧ bl = bl')

/-- R9: fields that the OR-compositions of R170, R181, R154, R200, R206 and R207 do not alter: the flags of the entry-mode
and display-control registers, the class and direction of a shift, a CGRAM slot address, a fade rate with its mode code, and
a DDRAM address whose bits all lie within `P_DDRAM_MAX[f]`. Nothing is said of the other addresses up to `P_DDRAM_MAX[f]`:
item 5 of R9 keeps the base clear of the mask's bits only, and where that mask has gaps an address outside it may be lost. -/
def Obligations.CommandFieldsAreLossless : Prop :=
  ∀ (p : WfParams) (f : Family),
    let F := p.val.fam f
    (∀ v : Byte, (F.cmdEM ||| v) &&& F.emLTR = v &&& F.emLTR ∧ (F.cmdEM ||| v) &&& F.emShift = v &&& F.emShift)
      ∧ (∀ v : Byte, ∀ m ∈ [F.dcDisplay, F.dcCursor, F.dcBlink], (F.cmdDC ||| v) &&& m = v &&& m)
      ∧ (∀ d r d' r' : Bool,
          F.cmdShift ||| maskIf d F.shDisplay ||| maskIf r F.shRight
            = F.cmdShift ||| maskIf d' F.shDisplay ||| maskIf r' F.shRight → d = d' ∧ r = r')
      ∧ (∀ n : Byte, n &&& ~~~F.ddramMax = 0 → (F.cmdDDRAM ||| n) &&& F.ddramMax = n)
      ∧ (∀ slot : Byte, (F.cmdCGRAM ||| (slotIndex slot <<< 3)) &&& (0x3F : Byte) = slotIndex slot <<< 3)
      ∧ (∀ rate : Byte, ∀ mode ∈ [p.val.fadeModeOff, p.val.fadeModeOnce, p.val.fadeModeBlink],
          fadeValue mode rate &&& (0x0F : Byte) = rate &&& (0x0F : Byte) ∧ fadeValue mode rate &&& (0xF0 : Byte) = mode)

/-- R278: the init scripts under CFG-GK, action by action in the nibble family and by count in the byte-mode family. -/
def Obligations.InitScriptActions : Prop :=
  ∀ (o : OpenEntries) (a : BusAddr),
    let w : List Byte → List Action := fun l => l.map (Action.wb a)
    (initScript ⟨gk o, .nibble, a, true⟩ 0x08 0x04 0x02
        = w [0x38, 0x3C, 0x38] ++ [.wait 4100] ++ w [0x38, 0x3C, 0x38] ++ [.wait 4100]
          ++ w [0x38, 0x3C, 0x38] ++ [.wait 4100] ++ w [0x28, 0x2C, 0x28]
          ++ w [0x88, 0x8C, 0x88, 0x28, 0x2C, 0x28] ++ w [0xC8, 0xCC, 0xC8, 0x08, 0x0C, 0x08]
          ++ w [0x68, 0x6C, 0x68, 0x08, 0x0C, 0x08] ++ w [0x18, 0x1C, 0x18, 0x08, 0x0C, 0x08] ++ [.wait 1530]
          ++ w [0x08, 0x0C, 0x08, 0x88, 0x8C, 0x88])
      ∧ ((∀ st ∈ o.preamble, ∀ t, st ≠ .wait t) →
          let sc := initScript ⟨gk o, .byteMode, a, true⟩ 0x08 0x04 0x02
          sc.length = 2 * o.preamble.length + 11
            ∧ sc.drop (2 * o.preamble.length)
                = [.wbr a 0x80 0x28, .wait 1000, .wbr a 0x80 0x0C, .wait 1000, .wbr a 0x80 0x06, .wait 1000,
                   .wbr a 0x80 0x01, .wait 1000, .wait 1530, .wbr a 0x80 0x80, .wait 1000])

/-- R273 to R276: the parts of the init script of each family, in their order. -/
def Obligations.InitScriptOrder : Prop :=
  ∀ (e : Enc) (FS DC EM : Byte),
    let pulse := nibWrite e e.P.modeEntryNibble false ++ [.wait e.P.tModeEntry]
    let tail := cmd e (e.F.cmdFS ||| FS) ++ cmd e (e.F.cmdDC ||| DC) ++ cmd e (e.F.cmdEM ||| EM)
      ++ cmd e e.F.cmdClear ++ [.wait e.P.tClear] ++ cmd e e.F.cmdDDRAM
    (e.family = .nibble →
      initScript e FS DC EM = waitFor e.P.tPowerOn ++ pulse ++ pulse ++ pulse ++ initSteps e e.P.nibPreTail ++ tail)
      ∧ (e.family = .byteMode →
        initScript e FS DC EM = waitFor e.P.tPowerOn ++ initSteps e e.P.bytePreamble ++ tail)
      ∧ 4100 ≤ e.P.tModeEntry ∧ 1530 ≤ e.P.tClear

/-! ## What each request does -/

/-- R150: WRITE_CHAR sends its byte unchanged on the data path and writes no state. -/
def Obligations.WriteCharSendsItsByte : Prop :=
  ∀ (s : State) (ch : Byte),
    encode (.writeChar ch) = [0x01, ch]
      ∧ exec (.writeChar ch) s = .next (accepted (.writeChar ch) (dat s.enc ch) s)

/-- R151: CLEAR sends the clear command and then waits; no shadow changes. -/
def Obligations.ClearSendsCommandAndWaits : Prop :=
  encode .clear = [0x02] ∧ ∀ s : State, exec .clear s = .next (accepted .clear (cmd s.enc s.F.cmdClear ++ [.wait s.P.tClear]) s)

/-- R152: HOME sends the set-DDRAM command to address 0, exactly the script of CURSOR_MOVE 1, 1. -/
def Obligations.HomeIsCursorMoveToOrigin : Prop :=
  encode .home = [0x03] ∧ ∀ s : State, 1 ≤ s.rows → s.rows ≤ 4 →
    exec .home s = .next (accepted .home (cmd s.enc (s.F.cmdDDRAM ||| 0x00)) s)
      ∧ exec (.cursorMove 1 1) s = .next (accepted (.cursorMove 1 1) (cmd s.enc (s.F.cmdDDRAM ||| 0x00)) s)

/-- R153, R154, R235: the row is clamped, the table is never indexed out of bounds, and the column is refused or the
set-DDRAM command is sent. A refusal is seen BUSY with its response on offer (log entry 21). -/
def Obligations.CursorMoveSetsAddressOrIsRefused : Prop :=
  ∀ (s : State) (row col : Byte), 1 ≤ s.rows → s.rows ≤ 4 →
    encode (.cursorMove row col) = [0x04, row, col] ∧ ∃ off : Nat,
      (if s.rows ≤ 2 then [0x00, 0x40] else if s.family = .nibble then [0x00, 0x40, 0x14, 0x54] else [0x00, 0x20, 0x40, 0x60])[
        min (max row.toNat 1) s.rows - 1]? = some off
      ∧ ((col = 0 ∨ col.toNat - 1 + off > s.F.ddramMax.toNat) →
          exec (.cursorMove row col) s = .next (refused (.request (.cursorMove row col)) 0x04 .badOperand s))
      ∧ (col ≠ 0 ∧ col.toNat - 1 + off ≤ s.F.ddramMax.toNat →
          exec (.cursorMove row col) s
            = .next (accepted (.cursorMove row col) (cmd s.enc (s.F.cmdDDRAM ||| BitVec.ofNat 8 (col.toNat - 1 + off))) s))

/-- R155: a row past the last one emits what the last one emits, is refused where the last one is, and otherwise sends the
address of the clamped row. -/
def Obligations.RowsPastTheLastClamp : Prop :=
  ∀ (s t u : State) (row col : Byte), 1 ≤ s.rows → s.rows ≤ 4 → s.rows < row.toNat →
    exec (.cursorMove row col) s = .next t → exec (.cursorMove (BitVec.ofNat 8 s.rows) col) s = .next u →
    t.script = u.script ∧ t.phase = u.phase ∧ t.rspOut = u.rspOut ∧ t.rsps = u.rsps
      ∧ (1 ≤ col.toNat → (col.toNat - 1) + rowOffset s.family s.rows (min row.toNat s.rows) ≤ s.F.ddramMax.toNat →
          t.script = cmd s.enc
            (s.F.cmdDDRAM ||| BitVec.ofNat 8 ((col.toNat - 1) + rowOffset s.family s.rows (min row.toNat s.rows))))

/-- R171 to R176: each display-control operation writes its flag of `S.DC` and sends the whole register. -/
def Obligations.DisplayControlOpsSendTheRegister : Prop :=
  dcOps.map (fun op => encode op.1) = [[0x10], [0x11], [0x12], [0x13], [0x14], [0x15]] ∧ ∀ op ∈ dcOps, ∀ s : State,
    let v := if op.2.2 then s.DC ||| op.2.1 s.F else s.DC &&& ~~~(op.2.1 s.F)
    exec op.1 s = .next (accepted op.1 (cmd s.enc (s.F.cmdDC ||| v)) { s with DC := v })

/-- R177 to R180: each entry-mode operation writes its flag of `S.EM` and sends the whole register. -/
def Obligations.EntryModeOpsSendTheRegister : Prop :=
  emOps.map (fun op => encode op.1) = [[0x30], [0x31], [0x32], [0x33]] ∧ ∀ op ∈ emOps, ∀ s : State,
    let v := if op.2.2 then s.EM ||| op.2.1 s.F else s.EM &&& ~~~(op.2.1 s.F)
    exec op.1 s = .next (accepted op.1 (cmd s.enc (s.F.cmdEM ||| v)) { s with EM := v })

/-- R36, R37, R175: a register operation sets or clears its own flag and no other flag of the register. -/
def Obligations.RegisterOpsChangeOneFlag : Prop :=
  (∀ op ∈ dcOps, ∀ s t : State, exec op.1 s = .next t →
      t.DC &&& op.2.1 s.F = maskIf op.2.2 (op.2.1 s.F)
        ∧ (∀ m ∈ [s.F.dcDisplay, s.F.dcCursor, s.F.dcBlink], m ≠ op.2.1 s.F → t.DC &&& m = s.DC &&& m)
        ∧ t.DC &&& ~~~(op.2.1 s.F) = s.DC &&& ~~~(op.2.1 s.F))
    ∧ (∀ op ∈ emOps, ∀ s t : State, exec op.1 s = .next t →
      t.EM &&& op.2.1 s.F = maskIf op.2.2 (op.2.1 s.F)
        ∧ (∀ m ∈ [s.F.emLTR, s.F.emShift], m ≠ op.2.1 s.F → t.EM &&& m = s.EM &&& m)
        ∧ t.EM &&& ~~~(op.2.1 s.F) = s.EM &&& ~~~(op.2.1 s.F))

/-- R186: twice on is once on; on then off clears the bit, and restores the register exactly when the bit was clear;
operations of one register commute in their effect on it when their flags differ. -/
def Obligations.ShadowFlagLaws : Prop :=
  (∀ on ∈ dcOps, ∀ off ∈ dcOps, ∀ s : State, on.2.2 = true → off.2.2 = false → on.2.1 s.F = off.2.1 s.F →
      (after on.1 (after on.1 s)).DC = (after on.1 s).DC
        ∧ (after off.1 (after on.1 s)).DC &&& on.2.1 s.F = 0
        ∧ ((after off.1 (after on.1 s)).DC = s.DC ↔ s.DC &&& on.2.1 s.F = 0))
    ∧ (∀ a ∈ dcOps, ∀ b ∈ dcOps, ∀ s : State, a.2.1 s.F ≠ b.2.1 s.F →
      (after a.1 (after b.1 s)).DC = (after b.1 (after a.1 s)).DC)
    ∧ (∀ on ∈ emOps, ∀ off ∈ emOps, ∀ s : State, on.2.2 = true → off.2.2 = false → on.2.1 s.F = off.2.1 s.F →
      (after on.1 (after on.1 s)).EM = (after on.1 s).EM
        ∧ (after off.1 (after on.1 s)).EM &&& on.2.1 s.F = 0
        ∧ ((after off.1 (after on.1 s)).EM = s.EM ↔ s.EM &&& on.2.1 s.F = 0))
    ∧ (∀ a ∈ emOps, ∀ b ∈ emOps, ∀ s : State, a.2.1 s.F ≠ b.2.1 s.F →
      (after a.1 (after b.1 s)).EM = (after b.1 (after a.1 s)).EM)

/-- R181 to R185: a shift sends its class and direction bits on the shift command and writes no state. -/
def Obligations.ShiftOpsSendClassAndDirection : Prop :=
  [Instr.displayShiftLeft, .displayShiftRight, .cursorShiftLeft, .cursorShiftRight].map encode
      = [[0x20], [0x21], [0x22], [0x23]] ∧ ∀ s : State,
    exec .displayShiftLeft s = .next (accepted .displayShiftLeft (cmd s.enc (s.F.cmdShift ||| s.F.shDisplay)) s)
      ∧ exec .displayShiftRight s
          = .next (accepted .displayShiftRight (cmd s.enc (s.F.cmdShift ||| s.F.shDisplay ||| s.F.shRight)) s)
      ∧ exec .cursorShiftLeft s = .next (accepted .cursorShiftLeft (cmd s.enc s.F.cmdShift) s)
      ∧ exec .cursorShiftRight s = .next (accepted .cursorShiftRight (cmd s.enc (s.F.cmdShift ||| s.F.shRight)) s)

/-- R200: CREATE_CHAR sends the set-CGRAM command of `slot & 7` and then 7 or 8 glyph rows as data, row 0 first. -/
def Obligations.CreateCharSendsSlotAndRows : Prop :=
  ∀ (s : State) (slot : Byte) (g : Glyph),
    encode (.createChar slot g) = [0x40, slot, g.g0, g.g1, g.g2, g.g3, g.g4, g.g5, g.g6, g.g7]
      ∧ (s.P.glyphRows = 7 ∨ s.P.glyphRows = 8)
      ∧ exec (.createChar slot g) s
        = .next (accepted (.createChar slot g)
            (cmd s.enc (s.F.cmdCGRAM ||| BitVec.ofNat 8 (8 * (slot.toNat % 8)))
              ++ dat s.enc g.g0 ++ dat s.enc g.g1 ++ dat s.enc g.g2 ++ dat s.enc g.g3 ++ dat s.enc g.g4
              ++ dat s.enc g.g5 ++ dat s.enc g.g6 ++ (if s.P.glyphRows = 8 then dat s.enc g.g7 else [])) s)

/-- R201, R202: in the nibble family the backlight bit is written and one WB of that bit alone is sent; in the byte-mode
family the request is UNSUPPORTED and changes nothing; it is seen BUSY with its response on offer (log entry 21). -/
def Obligations.BacklightWritesItsBitAlone : Prop :=
  encode .backlightOn = [0x50] ∧ encode .backlightOff = [0x51] ∧ ∀ s : State,
    (s.family = .nibble →
      exec .backlightOn s = .next (accepted .backlightOn [.wb s.addr s.P.blMask] { s with BL := true })
        ∧ exec .backlightOff s = .next (accepted .backlightOff [.wb s.addr 0x00] { s with BL := false }))
      ∧ (s.family = .byteMode →
        exec .backlightOn s = .next (refused (.request .backlightOn) 0x50 .unsupported s)
          ∧ exec .backlightOff s = .next (refused (.request .backlightOff) 0x51 .unsupported s))

/-- R203 to R207: in the byte-mode family each extended operation sends ten command writes, each with its settle wait, the
value byte in position 6; in the nibble family the request is UNSUPPORTED, seen BUSY with its response on offer (log entry 21). -/
def Obligations.ExtendedOpsSendTheEnvelope : Prop :=
  (∀ v : Byte, encode (.setBrightness v) = [0x60, v] ∧ encode .fadeOff = [0x70] ∧ encode (.fadeOnce v) = [0x71, v]
      ∧ encode (.fadeBlink v) = [0x72, v]) ∧ ∀ (s : State) (v : Byte),
    let ext : Byte → Byte → List Action := fun sel value =>
      [s.P.envUnlock.b1, s.P.envUnlock.b2, s.P.envUnlock.b3, s.P.envUnlock.b4, sel, value,
       s.P.envRelock.b1, s.P.envRelock.b2, s.P.envRelock.b3, s.P.envRelock.b4].flatMap
        fun b => [.wbr s.addr s.P.modeCmd b, .wait s.P.tSettle]
    (s.family = .byteMode →
      exec (.setBrightness v) s = .next (accepted (.setBrightness v) (ext s.P.selContrast v) s)
        ∧ exec .fadeOff s = .next (accepted .fadeOff (ext s.P.selFade s.P.fadeModeOff) s)
        ∧ exec (.fadeOnce v) s = .next (accepted (.fadeOnce v) (ext s.P.selFade (s.P.fadeModeOnce ||| (v &&& 0x0F))) s)
        ∧ exec (.fadeBlink v) s = .next (accepted (.fadeBlink v) (ext s.P.selFade (s.P.fadeModeBlink ||| (v &&& 0x0F))) s))
      ∧ (s.family = .nibble →
        exec (.setBrightness v) s = .next (refused (.request (.setBrightness v)) 0x60 .unsupported s)
          ∧ exec .fadeOff s = .next (refused (.request .fadeOff) 0x70 .unsupported s)
          ∧ exec (.fadeOnce v) s = .next (refused (.request (.fadeOnce v)) 0x71 .unsupported s)
          ∧ exec (.fadeBlink v) s = .next (refused (.request (.fadeBlink v)) 0x72 .unsupported s))

/-- The frame of every request: what its acceptance leaves unchanged, and which requests write each shadow (R170, R187,
R201, R202, R203). -/
def Obligations.RequestFrame : Prop :=
  ∀ (i : Instr) (s t : State), exec i s = .next t →
    t.params = s.params ∧ t.family = s.family ∧ t.addr = s.addr ∧ t.rows = s.rows ∧ t.policy = s.policy ∧ t.FS = s.FS
      ∧ t.rx = s.rx ∧ t.rst = s.rst ∧ t.cfg = s.cfg ∧ t.actReady = s.actReady ∧ t.rspReady = s.rspReady
      ∧ t.pins = s.pins ∧ t.reqIn = s.reqIn ∧ t.actIn = s.actIn
      ∧ t.acts = s.acts ∧ t.rsps = s.rsps ∧ t.logs = s.logs ∧ t.draws = s.draws
      ∧ (i ∉ emOps.map Prod.fst → t.EM = s.EM)
      ∧ (i ∉ dcOps.map Prod.fst → t.DC = s.DC)
      ∧ (i ∉ [.backlightOn, .backlightOff] → t.BL = s.BL)

/-- R230, R232, R234, R235, R243: a request is accepted with no response, or its response UNSUPPORTED or BAD_OPERAND is on
offer and it has no effect at all; UNSUPPORTED has exactly the cause the spec gives it. That a refusal is seen BUSY is the
model's reading (log entry 21). -/
def Obligations.RequestErrorsArePrecise : Prop :=
  ∀ (i : Instr) (s t : State), exec i s = .next t →
    (i.supported s.family = false → t = refused (.request i) i.opcode .unsupported s)
      ∧ (i.supported s.family = true →
          (t.phase = .busy ∧ t.cur = some (.request i) ∧ t.pos = 0 ∧ t.issued = false ∧ t.rspOut = none ∧ t.rsps = s.rsps
              ∧ t.script ≠ [])
            ∨ (t = refused (.request i) 0x04 .badOperand s ∧ ∃ row col, i = .cursorMove row col))
      ∧ (i.supported s.family = false ↔
          (s.family = .byteMode ∧ (i = .backlightOn ∨ i = .backlightOff))
            ∨ (s.family = .nibble ∧ (i.opcode = 0x60 ∨ i.opcode = 0x70 ∨ i.opcode = 0x71 ∨ i.opcode = 0x72)))

/-- R41: no request script has more than 90 actions, and CREATE_CHAR with 8 rows and a step wait has 90. -/
def Obligations.RequestScriptsHaveAtMost90Actions : Prop :=
  (∀ (i : Instr) (s t : State), exec i s = .next t → t.script.length ≤ 90)
    ∧ (∀ (s t : State) (slot : Byte) (g : Glyph), s.family = .nibble → s.P.glyphRows = 8 → 0 < s.P.tNibStep →
        exec (.createChar slot g) s = .next t → t.script.length = 90)

/-! ## Bus errors and whole runs -/

/-- R237: under SWALLOW a failed write leaves exactly what a successful one leaves. -/
def Obligations.SwallowIgnoresBusErrors : Prop :=
  ∀ (s : State) (rest : List Completion), PinsQuiet s → Running s → s.issued = true →
    s.pos < s.script.length → s.policy = .swallow →
    step { s with actIn := .err :: rest } = step { s with actIn := .ok :: rest }

/-- R236: "A WAIT never errs", under every policy. -/
def Obligations.WaitNeverErrs : Prop :=
  ∀ (s : State) (t : Nat) (rest : List Completion), PinsQuiet s → Running s → s.issued = true →
    s.script[s.pos]? = some (.wait t) →
    step { s with actIn := .err :: rest } = step { s with actIn := .ok :: rest }

/-- R238: under LOG a failed write emits one record and is otherwise as a successful one. -/
def Obligations.LogRecordsTheFailedWrite : Prop :=
  ∀ (s t u : State) (a : Action) (rest : List Completion), PinsQuiet s → Running s →
    s.issued = true → s.script[s.pos]? = some a → a.isWrite = true → s.policy = .log →
    step { s with actIn := .ok :: rest } = .next t → step { s with actIn := .err :: rest } = .next u →
    ∃ op, u = { t with logs := s.logs ++ [⟨op, s.pos, a⟩] }
      ∧ (∀ i, s.cur = some (.request i) → op = i.opcode) ∧ (s.cur = some .initSequence → op = 0x00)

/-- R239, R240: under PROPAGATE a failed write ends the script at once; a request is answered BUS_ERROR and its state
writes stay; the init script leaves the block in INIT_FAILED with no response. Not the rules' words but the model's: in
INIT_FAILED `S.script`, `S.pos` and `S.cur` stay as at the failure (log entry 12, DEDUCED); READY has `S.cur` none (log entry
13, DEDUCED); BUS_ERROR is on offer from the step of the completion, and its acceptance, which makes the block READY, is a
step of its own (log entries 10, 21). -/
def Obligations.PropagateEndsTheScript : Prop :=
  ∀ (s : State) (a : Action) (rest : List Completion), PinsQuiet s → s.issued = true →
    s.script[s.pos]? = some a → a.isWrite = true → s.policy = .propagate → s.actIn = .err :: rest →
    (∀ i, s.phase = .busy → s.rspOut = none → s.cur = some (.request i) →
        step s = .next { s with rspOut := some ⟨i.opcode, .busError⟩, issued := false, actIn := rest }
          ∧ (s.rspReady = true → run 2 s = .next { answered i.opcode .busError s with actIn := rest }))
      ∧ (s.phase = .init → s.cur = some .initSequence →
        step s = .next { s with phase := .initFailed, issued := false, actIn := rest })

/-- R231, R237 to R239: from its acceptance, a request's script is emitted in order and answered once. Under SWALLOW and
LOG it is emitted whole and answered OK, LOG adding one record for each failed write; under PROPAGATE it is emitted up to
and including the first failed write, and then answered BUS_ERROR. The receivers accept at once, every action has a
completion (R121). The model's choice: two steps for each action (log entry 7), one for the response (log entries 10, 21), `S.cur`
none in READY (log entry 13). -/
def Obligations.AcceptedScriptRunsToItsResponse : Prop :=
  ∀ (s : State) (i : Instr) (cs more : List Completion),
    PinsQuiet s → ReceiversReady s → s.phase = .busy → s.rspOut = none → s.cur = some (.request i) → s.pos = 0 →
    s.issued = false → s.script ≠ [] →
    s.actIn = cs ++ more → cs.length = s.script.length → Completion.stale ∉ cs →
    let n := s.script.length
    let ended : Nat → RspCode → List LogRecord → State := fun k code recs =>
      { answered i.opcode code s with
        acts := s.acts ++ s.script.take k, logs := s.logs ++ recs, actIn := (cs ++ more).drop k }
    (s.policy = .swallow → run (2 * n + 1) s = .next (ended n .ok []))
      ∧ (s.policy = .log → run (2 * n + 1) s = .next (ended n .ok (failureRecords i.opcode 0 s.script cs)))
      ∧ (s.policy = .propagate → firstFailure s.script cs = none → run (2 * n + 1) s = .next (ended n .ok []))
      ∧ (∀ k, s.policy = .propagate → firstFailure s.script cs = some k →
          run (2 * (k + 1) + 1) s = .next (ended (k + 1) .busError []))

/-- R240, R277: the init script runs to READY with no response, whatever fails, under SWALLOW and LOG; under PROPAGATE the
first failed write ends it in INIT_FAILED. The model's choice: two steps for each action (log entry 7), with a receiver that
accepts each at once (log entry 10), `S.cur` none in READY, as R45 has it, and in INIT_FAILED `S.script`, `S.pos` and `S.cur` as
at the failure (log entry 12, DEDUCED). -/
def Obligations.InitScriptRunsToReady : Prop :=
  ∀ (s : State) (cs more : List Completion),
    PinsQuiet s → s.actReady = true → s.phase = .init → s.cur = some .initSequence → s.pos = 0 → s.issued = false →
    s.script ≠ [] →
    s.actIn = cs ++ more → cs.length = s.script.length → Completion.stale ∉ cs →
    let n := s.script.length
    let ready : List LogRecord → State := fun recs =>
      { s with phase := .ready, script := [], pos := 0, cur := none, rspOut := none
               acts := s.acts ++ s.script, logs := s.logs ++ recs, actIn := more }
    (s.policy = .swallow → run (2 * n) s = .next (ready []))
      ∧ (s.policy = .log → run (2 * n) s = .next (ready (failureRecords 0x00 0 s.script cs)))
      ∧ (s.policy = .propagate → firstFailure s.script cs = none → run (2 * n) s = .next (ready []))
      ∧ (∀ k, s.policy = .propagate → firstFailure s.script cs = some k →
          run (2 * (k + 1)) s = .next { s with phase := .initFailed, pos := k
                                               acts := s.acts ++ s.script.take (k + 1), actIn := (cs ++ more).drop (k + 1) })

/-- R90, R231, end to end: a request's bytes, offered to an idle block whose bus completes every action, end READY with
the request's script emitted in order and one OK response. That the number of steps is one for each byte (log entry 8), two
for each action (log entry 7) and one for the response (log entries 10, 21), and that `S.cur` is none at the end (log entry 13),
is the model's choice. -/
def Obligations.RequestRunsFromBytesToResponse : Prop :=
  ∀ (s t : State) (i : Instr) (rest : List Byte) (cs more : List Completion),
    PinsQuiet s → ReceiversReady s → Idle s → s.reqIn = encode i ++ rest →
    exec i { s with reqIn := rest } = .next t → t.rspOut = none →
    s.actIn = cs ++ more → cs.length = t.script.length → (∀ c ∈ cs, c = .ok) →
    run ((encode i).length + 2 * t.script.length + 1) s
      = .next { t with phase := .ready, script := [], pos := 0, cur := none
                       acts := s.acts ++ t.script, rsps := s.rsps ++ [⟨i.opcode, .ok⟩], actIn := more }

/-- R45, R270 to R272: the state `State.reset` is the one the release of `rst` leads to from RESET with its straps; the
straps, the parameter set and the receivers that accept at once are the model's choice (log entries 2, 4 and 10). -/
def Obligations.ResetStateIsTheReleasedState : Prop :=
  ∀ s : State, PinsQuiet s → ReceiversReady s → s.phase = .reset → s.cfg = resetStraps → s.params = State.reset.params →
    s.reqIn = [] → s.actIn = [] → s.acts = [] → s.rsps = [] → s.logs = [] → s.draws = 0 →
    step s = .next State.reset

/-! ## The assembler -/

/-- R97, R99: the assembler accepts exactly the well-formed lines. What is well-formed follows R97 where it speaks and log
entry 19 (DESIGN CHOICE) where it does not: a character is taken for any one-byte operand, the row of CURSOR_MOVE among
them, and a glyph row is a number only. -/
def Obligations.AssemblerRefusesWhatIsIllFormed : Prop := ∀ l : AsmLine, (assemble l).isSome = l.wf

/-- R99: WRITE_STRING assembles to one WRITE_CHAR for each character, in order, and to nothing for an empty string. -/
def Obligations.WriteStringExpandsToWriteChars : Prop :=
  ∀ codes : List Nat, (∀ c ∈ codes, c ≤ 255) →
    (assemble (.writeString codes)).map encodeAll = some (codes.flatMap fun c => [0x01, BitVec.ofNat 8 c])

/-! ## The handshakes of the ports -/

/-- R6, R231: a response on offer is consumed when its receiver accepts it, and only then is the block READY; a receiver that
does not accept it holds the block in BUSY, where it takes no request byte and offers no action, for ever if it never
accepts. The model's choice: acceptance is a step of its own (log entries 10, 21), and READY has `S.cur` none (log entry 13). -/
def Obligations.ResponseHoldsTheBlockUntilAccepted : Prop :=
  ∀ (s : State) (r : Response), s.phase = .busy → s.rspOut = some r →
    status s = 3 ∧ reqReady s = false ∧ actOffer s = none
      ∧ (rstNow s = false → rspReadyNow s = true → step s = .next (answered r.op r.code (sampled s)))
      ∧ (rstNow s = false → rspReadyNow s = false → step s = .next (sampled s))
      ∧ (∀ k, PinsQuiet s → s.rspReady = false → run k s = .next s)

/-- R6, R73, R120: the action at `S.pos` of a running script is on offer until its receiver accepts it, and is issued then; a
receiver that does not accept it holds the block, for ever if it never accepts. That acceptance and completion are two
steps is the model's choice (log entries 7, 10). -/
def Obligations.ActionHoldsTheBlockUntilAccepted : Prop :=
  ∀ (s : State) (a : Action), Running s → s.issued = false → s.script[s.pos]? = some a →
    actOffer s = some a
      ∧ (rstNow s = false → actReadyNow s = true →
          step s = .next { sampled s with acts := s.acts ++ [a], issued := true })
      ∧ (rstNow s = false → actReadyNow s = false → step s = .next (sampled s))
      ∧ (∀ k, PinsQuiet s → s.actReady = false → run k s = .next s)

/-- R6, R40, R90: the ready indication of `req` is given in READY only, and with `rst` low a step takes a byte on offer
exactly when it is given. That it takes one byte is the model's choice (log entry 8). -/
def Obligations.ReadyIndicationTellsWhenAByteIsTaken : Prop :=
  ∀ s t : State, (reqReady s = true ↔ s.phase = .ready) ∧ (rstNow s = false → step s = .next t →
    (reqReady s = true → t.reqIn = s.reqIn.tail) ∧ (reqReady s = false → t.reqIn = s.reqIn))
end

