-- ==== Sys2Proof/Laws/Decode.lean ====
section
/-! SUPPORT. What the opcode map can answer, said once: an opcode byte is illegal, or it starts the requests of one layout. -/

namespace Sys2Proof

/-- The requests a layout builds are encoded with this opcode byte and their operand bytes (R91, R94). -/
def Layout.Encodes (op : Byte) : Layout → Prop
  | .n i  => encode i = [op]
  | .b f  => ∀ a, encode (f a) = [op, a]
  | .rc f => ∀ r c, encode (f r c) = [op, r, c]
  | .g f  => ∀ s g, encode (f s g) = op :: s :: g.rows

theorem lookup_mem {α : Type} {k : Byte} {v : α} {l : List (Byte × α)} (h : l.lookup k = some v) : (k, v) ∈ l := by
  induction l with
  | nil => cases h
  | cons e l ih =>
    unfold List.lookup at h
    split at h
    · rename_i hk
      cases h
      rw [eq_of_beq hk]
      exact List.mem_cons_self
    · exact List.mem_cons_of_mem _ (ih h)

theorem opcodeMap_encodes : ∀ r ∈ opcodeMap, r.2.Encodes r.1 := by
  intro r hr
  simp only [opcodeMap, List.mem_cons, List.not_mem_nil, or_false] at hr
  repeat' (rcases hr with hr | hr)
  all_goals first | rfl | (intro _; rfl) | (intro _ _; rfl)

/-- Each opcode byte starts the requests its layout builds. -/
theorem layoutOf_encodes {op : Byte} {l : Layout} (h : layoutOf op = some l) : l.Encodes op :=
  opcodeMap_encodes _ (lookup_mem h)

theorem decodeOp_layout {op : Byte} {l : Layout} (h : layoutOf op = some l) (rest : List Byte) :
    decodeOp op rest = l.decode rest := by simp [decodeOp, h]

theorem decodeOp_illegal {op : Byte} (h : layoutOf op = none) (rest : List Byte) :
    decodeOp op rest = .illegal op rest := by simp [decodeOp, h]

/-- A layout never reads an illegal opcode out of its operand bytes (R95). -/
theorem Layout.decode_not_illegal (l : Layout) (rest r : List Byte) (c : Byte) : l.decode rest ≠ .illegal c r := by
  cases l <;> simp only [Layout.decode, decodeN, decodeB, decodeRC, decodeG] <;> (try split) <;> simp

/-- A request's own layout reads it back (R91). -/
theorem layoutOf_opcode (i : Instr) (rest : List Byte) :
    ∃ l, layoutOf i.opcode = some l ∧ l.decode (i.operands ++ rest) = .ok i rest
      ∧ l.length = i.operands.length + 1 := by
  cases i <;> exact ⟨_, rfl, rfl, rfl⟩

/-- Fewer operand bytes than the layout's format asks for are an incomplete request (R90, R96). -/
theorem Layout.decode_short (l : Layout) (bs : List Byte) (h : bs.length + 1 < l.length) : l.decode bs = .incomplete := by
  cases l with
  | n i => simp [Layout.length] at h
  | b f =>
    cases bs with
    | nil => rfl
    | cons a bs => simp [Layout.length] at h
  | rc f =>
    match bs, h with
    | [], _ => rfl
    | [_], _ => rfl
    | _ :: _ :: _, h => simp [Layout.length] at h; omega
  | g f =>
    simp only [Layout.decode, decodeG]
    split
    · simp [Layout.length] at h
      omega
    · rfl

/-- The bytes so far of a request are incomplete until its last byte (R90). -/
theorem decode_prefix_incomplete (i : Instr) (pre suf : List Byte) (h : encode i = pre ++ suf) (hs : suf ≠ []) :
    decode pre = .incomplete := by
  cases pre with
  | nil => rfl
  | cons op pre =>
    rw [encode, List.cons_append, List.cons.injEq] at h
    obtain ⟨rfl, h⟩ := h
    obtain ⟨l, hl, -, hlen⟩ := layoutOf_opcode i []
    rw [decode, decodeOp_layout hl]
    apply Layout.decode_short
    rw [hlen, h, List.length_append]
    have := List.length_pos_of_ne_nil hs
    omega

end Sys2Proof
end

