-- ==== Sys2Proof/Laws/State.lean ====
section
/-! SUPPORT. What each named update of State leaves in each field: one lemma a field and update, true by unfolding. -/

namespace Sys2Proof.Machine


/-! `setEM` -/

@[simp] theorem State.setEM_params (s : State) (v : Byte) : (s.setEM v).params = s.params := rfl
@[simp] theorem State.setEM_family (s : State) (v : Byte) : (s.setEM v).family = s.family := rfl
@[simp] theorem State.setEM_addr (s : State) (v : Byte) : (s.setEM v).addr = s.addr := rfl
@[simp] theorem State.setEM_rows (s : State) (v : Byte) : (s.setEM v).rows = s.rows := rfl
@[simp] theorem State.setEM_policy (s : State) (v : Byte) : (s.setEM v).policy = s.policy := rfl
@[simp] theorem State.setEM_EM (s : State) (v : Byte) : (s.setEM v).EM = v := rfl
@[simp] theorem State.setEM_DC (s : State) (v : Byte) : (s.setEM v).DC = s.DC := rfl
@[simp] theorem State.setEM_FS (s : State) (v : Byte) : (s.setEM v).FS = s.FS := rfl
@[simp] theorem State.setEM_BL (s : State) (v : Byte) : (s.setEM v).BL = s.BL := rfl
@[simp] theorem State.setEM_phase (s : State) (v : Byte) : (s.setEM v).phase = s.phase := rfl
@[simp] theorem State.setEM_script (s : State) (v : Byte) : (s.setEM v).script = s.script := rfl
@[simp] theorem State.setEM_pos (s : State) (v : Byte) : (s.setEM v).pos = s.pos := rfl
@[simp] theorem State.setEM_cur (s : State) (v : Byte) : (s.setEM v).cur = s.cur := rfl
@[simp] theorem State.setEM_issued (s : State) (v : Byte) : (s.setEM v).issued = s.issued := rfl
@[simp] theorem State.setEM_rspOut (s : State) (v : Byte) : (s.setEM v).rspOut = s.rspOut := rfl
@[simp] theorem State.setEM_rx (s : State) (v : Byte) : (s.setEM v).rx = s.rx := rfl
@[simp] theorem State.setEM_rst (s : State) (v : Byte) : (s.setEM v).rst = s.rst := rfl
@[simp] theorem State.setEM_cfg (s : State) (v : Byte) : (s.setEM v).cfg = s.cfg := rfl
@[simp] theorem State.setEM_actReady (s : State) (v : Byte) : (s.setEM v).actReady = s.actReady := rfl
@[simp] theorem State.setEM_rspReady (s : State) (v : Byte) : (s.setEM v).rspReady = s.rspReady := rfl
@[simp] theorem State.setEM_pins (s : State) (v : Byte) : (s.setEM v).pins = s.pins := rfl
@[simp] theorem State.setEM_reqIn (s : State) (v : Byte) : (s.setEM v).reqIn = s.reqIn := rfl
@[simp] theorem State.setEM_actIn (s : State) (v : Byte) : (s.setEM v).actIn = s.actIn := rfl
@[simp] theorem State.setEM_acts (s : State) (v : Byte) : (s.setEM v).acts = s.acts := rfl
@[simp] theorem State.setEM_rsps (s : State) (v : Byte) : (s.setEM v).rsps = s.rsps := rfl
@[simp] theorem State.setEM_logs (s : State) (v : Byte) : (s.setEM v).logs = s.logs := rfl
@[simp] theorem State.setEM_draws (s : State) (v : Byte) : (s.setEM v).draws = s.draws := rfl

/-! `setDC` -/

@[simp] theorem State.setDC_params (s : State) (v : Byte) : (s.setDC v).params = s.params := rfl
@[simp] theorem State.setDC_family (s : State) (v : Byte) : (s.setDC v).family = s.family := rfl
@[simp] theorem State.setDC_addr (s : State) (v : Byte) : (s.setDC v).addr = s.addr := rfl
@[simp] theorem State.setDC_rows (s : State) (v : Byte) : (s.setDC v).rows = s.rows := rfl
@[simp] theorem State.setDC_policy (s : State) (v : Byte) : (s.setDC v).policy = s.policy := rfl
@[simp] theorem State.setDC_EM (s : State) (v : Byte) : (s.setDC v).EM = s.EM := rfl
@[simp] theorem State.setDC_DC (s : State) (v : Byte) : (s.setDC v).DC = v := rfl
@[simp] theorem State.setDC_FS (s : State) (v : Byte) : (s.setDC v).FS = s.FS := rfl
@[simp] theorem State.setDC_BL (s : State) (v : Byte) : (s.setDC v).BL = s.BL := rfl
@[simp] theorem State.setDC_phase (s : State) (v : Byte) : (s.setDC v).phase = s.phase := rfl
@[simp] theorem State.setDC_script (s : State) (v : Byte) : (s.setDC v).script = s.script := rfl
@[simp] theorem State.setDC_pos (s : State) (v : Byte) : (s.setDC v).pos = s.pos := rfl
@[simp] theorem State.setDC_cur (s : State) (v : Byte) : (s.setDC v).cur = s.cur := rfl
@[simp] theorem State.setDC_issued (s : State) (v : Byte) : (s.setDC v).issued = s.issued := rfl
@[simp] theorem State.setDC_rspOut (s : State) (v : Byte) : (s.setDC v).rspOut = s.rspOut := rfl
@[simp] theorem State.setDC_rx (s : State) (v : Byte) : (s.setDC v).rx = s.rx := rfl
@[simp] theorem State.setDC_rst (s : State) (v : Byte) : (s.setDC v).rst = s.rst := rfl
@[simp] theorem State.setDC_cfg (s : State) (v : Byte) : (s.setDC v).cfg = s.cfg := rfl
@[simp] theorem State.setDC_actReady (s : State) (v : Byte) : (s.setDC v).actReady = s.actReady := rfl
@[simp] theorem State.setDC_rspReady (s : State) (v : Byte) : (s.setDC v).rspReady = s.rspReady := rfl
@[simp] theorem State.setDC_pins (s : State) (v : Byte) : (s.setDC v).pins = s.pins := rfl
@[simp] theorem State.setDC_reqIn (s : State) (v : Byte) : (s.setDC v).reqIn = s.reqIn := rfl
@[simp] theorem State.setDC_actIn (s : State) (v : Byte) : (s.setDC v).actIn = s.actIn := rfl
@[simp] theorem State.setDC_acts (s : State) (v : Byte) : (s.setDC v).acts = s.acts := rfl
@[simp] theorem State.setDC_rsps (s : State) (v : Byte) : (s.setDC v).rsps = s.rsps := rfl
@[simp] theorem State.setDC_logs (s : State) (v : Byte) : (s.setDC v).logs = s.logs := rfl
@[simp] theorem State.setDC_draws (s : State) (v : Byte) : (s.setDC v).draws = s.draws := rfl

/-! `setBL` -/

@[simp] theorem State.setBL_params (s : State) (v : Bool) : (s.setBL v).params = s.params := rfl
@[simp] theorem State.setBL_family (s : State) (v : Bool) : (s.setBL v).family = s.family := rfl
@[simp] theorem State.setBL_addr (s : State) (v : Bool) : (s.setBL v).addr = s.addr := rfl
@[simp] theorem State.setBL_rows (s : State) (v : Bool) : (s.setBL v).rows = s.rows := rfl
@[simp] theorem State.setBL_policy (s : State) (v : Bool) : (s.setBL v).policy = s.policy := rfl
@[simp] theorem State.setBL_EM (s : State) (v : Bool) : (s.setBL v).EM = s.EM := rfl
@[simp] theorem State.setBL_DC (s : State) (v : Bool) : (s.setBL v).DC = s.DC := rfl
@[simp] theorem State.setBL_FS (s : State) (v : Bool) : (s.setBL v).FS = s.FS := rfl
@[simp] theorem State.setBL_BL (s : State) (v : Bool) : (s.setBL v).BL = v := rfl
@[simp] theorem State.setBL_phase (s : State) (v : Bool) : (s.setBL v).phase = s.phase := rfl
@[simp] theorem State.setBL_script (s : State) (v : Bool) : (s.setBL v).script = s.script := rfl
@[simp] theorem State.setBL_pos (s : State) (v : Bool) : (s.setBL v).pos = s.pos := rfl
@[simp] theorem State.setBL_cur (s : State) (v : Bool) : (s.setBL v).cur = s.cur := rfl
@[simp] theorem State.setBL_issued (s : State) (v : Bool) : (s.setBL v).issued = s.issued := rfl
@[simp] theorem State.setBL_rspOut (s : State) (v : Bool) : (s.setBL v).rspOut = s.rspOut := rfl
@[simp] theorem State.setBL_rx (s : State) (v : Bool) : (s.setBL v).rx = s.rx := rfl
@[simp] theorem State.setBL_rst (s : State) (v : Bool) : (s.setBL v).rst = s.rst := rfl
@[simp] theorem State.setBL_cfg (s : State) (v : Bool) : (s.setBL v).cfg = s.cfg := rfl
@[simp] theorem State.setBL_actReady (s : State) (v : Bool) : (s.setBL v).actReady = s.actReady := rfl
@[simp] theorem State.setBL_rspReady (s : State) (v : Bool) : (s.setBL v).rspReady = s.rspReady := rfl
@[simp] theorem State.setBL_pins (s : State) (v : Bool) : (s.setBL v).pins = s.pins := rfl
@[simp] theorem State.setBL_reqIn (s : State) (v : Bool) : (s.setBL v).reqIn = s.reqIn := rfl
@[simp] theorem State.setBL_actIn (s : State) (v : Bool) : (s.setBL v).actIn = s.actIn := rfl
@[simp] theorem State.setBL_acts (s : State) (v : Bool) : (s.setBL v).acts = s.acts := rfl
@[simp] theorem State.setBL_rsps (s : State) (v : Bool) : (s.setBL v).rsps = s.rsps := rfl
@[simp] theorem State.setBL_logs (s : State) (v : Bool) : (s.setBL v).logs = s.logs := rfl
@[simp] theorem State.setBL_draws (s : State) (v : Bool) : (s.setBL v).draws = s.draws := rfl

/-! `respond` -/

@[simp] theorem State.respond_params (s : State) (op : Byte) (c : RspCode) : (s.respond op c).params = s.params := rfl
@[simp] theorem State.respond_family (s : State) (op : Byte) (c : RspCode) : (s.respond op c).family = s.family := rfl
@[simp] theorem State.respond_addr (s : State) (op : Byte) (c : RspCode) : (s.respond op c).addr = s.addr := rfl
@[simp] theorem State.respond_rows (s : State) (op : Byte) (c : RspCode) : (s.respond op c).rows = s.rows := rfl
@[simp] theorem State.respond_policy (s : State) (op : Byte) (c : RspCode) : (s.respond op c).policy = s.policy := rfl
@[simp] theorem State.respond_EM (s : State) (op : Byte) (c : RspCode) : (s.respond op c).EM = s.EM := rfl
@[simp] theorem State.respond_DC (s : State) (op : Byte) (c : RspCode) : (s.respond op c).DC = s.DC := rfl
@[simp] theorem State.respond_FS (s : State) (op : Byte) (c : RspCode) : (s.respond op c).FS = s.FS := rfl
@[simp] theorem State.respond_BL (s : State) (op : Byte) (c : RspCode) : (s.respond op c).BL = s.BL := rfl
@[simp] theorem State.respond_phase (s : State) (op : Byte) (c : RspCode) : (s.respond op c).phase = s.phase := rfl
@[simp] theorem State.respond_script (s : State) (op : Byte) (c : RspCode) : (s.respond op c).script = s.script := rfl
@[simp] theorem State.respond_pos (s : State) (op : Byte) (c : RspCode) : (s.respond op c).pos = s.pos := rfl
@[simp] theorem State.respond_cur (s : State) (op : Byte) (c : RspCode) : (s.respond op c).cur = s.cur := rfl
@[simp] theorem State.respond_issued (s : State) (op : Byte) (c : RspCode) : (s.respond op c).issued = s.issued := rfl
@[simp] theorem State.respond_rspOut (s : State) (op : Byte) (c : RspCode) : (s.respond op c).rspOut = some ⟨op, c⟩ := rfl
@[simp] theorem State.respond_rx (s : State) (op : Byte) (c : RspCode) : (s.respond op c).rx = s.rx := rfl
@[simp] theorem State.respond_rst (s : State) (op : Byte) (c : RspCode) : (s.respond op c).rst = s.rst := rfl
@[simp] theorem State.respond_cfg (s : State) (op : Byte) (c : RspCode) : (s.respond op c).cfg = s.cfg := rfl
@[simp] theorem State.respond_actReady (s : State) (op : Byte) (c : RspCode) : (s.respond op c).actReady = s.actReady := rfl
@[simp] theorem State.respond_rspReady (s : State) (op : Byte) (c : RspCode) : (s.respond op c).rspReady = s.rspReady := rfl
@[simp] theorem State.respond_pins (s : State) (op : Byte) (c : RspCode) : (s.respond op c).pins = s.pins := rfl
@[simp] theorem State.respond_reqIn (s : State) (op : Byte) (c : RspCode) : (s.respond op c).reqIn = s.reqIn := rfl
@[simp] theorem State.respond_actIn (s : State) (op : Byte) (c : RspCode) : (s.respond op c).actIn = s.actIn := rfl
@[simp] theorem State.respond_acts (s : State) (op : Byte) (c : RspCode) : (s.respond op c).acts = s.acts := rfl
@[simp] theorem State.respond_rsps (s : State) (op : Byte) (c : RspCode) : (s.respond op c).rsps = s.rsps := rfl
@[simp] theorem State.respond_logs (s : State) (op : Byte) (c : RspCode) : (s.respond op c).logs = s.logs := rfl
@[simp] theorem State.respond_draws (s : State) (op : Byte) (c : RspCode) : (s.respond op c).draws = s.draws := rfl

/-! `emitLog` -/

@[simp] theorem State.emitLog_params (s : State) (r : LogRecord) : (s.emitLog r).params = s.params := rfl
@[simp] theorem State.emitLog_family (s : State) (r : LogRecord) : (s.emitLog r).family = s.family := rfl
@[simp] theorem State.emitLog_addr (s : State) (r : LogRecord) : (s.emitLog r).addr = s.addr := rfl
@[simp] theorem State.emitLog_rows (s : State) (r : LogRecord) : (s.emitLog r).rows = s.rows := rfl
@[simp] theorem State.emitLog_policy (s : State) (r : LogRecord) : (s.emitLog r).policy = s.policy := rfl
@[simp] theorem State.emitLog_EM (s : State) (r : LogRecord) : (s.emitLog r).EM = s.EM := rfl
@[simp] theorem State.emitLog_DC (s : State) (r : LogRecord) : (s.emitLog r).DC = s.DC := rfl
@[simp] theorem State.emitLog_FS (s : State) (r : LogRecord) : (s.emitLog r).FS = s.FS := rfl
@[simp] theorem State.emitLog_BL (s : State) (r : LogRecord) : (s.emitLog r).BL = s.BL := rfl
@[simp] theorem State.emitLog_phase (s : State) (r : LogRecord) : (s.emitLog r).phase = s.phase := rfl
@[simp] theorem State.emitLog_script (s : State) (r : LogRecord) : (s.emitLog r).script = s.script := rfl
@[simp] theorem State.emitLog_pos (s : State) (r : LogRecord) : (s.emitLog r).pos = s.pos := rfl
@[simp] theorem State.emitLog_cur (s : State) (r : LogRecord) : (s.emitLog r).cur = s.cur := rfl
@[simp] theorem State.emitLog_issued (s : State) (r : LogRecord) : (s.emitLog r).issued = s.issued := rfl
@[simp] theorem State.emitLog_rspOut (s : State) (r : LogRecord) : (s.emitLog r).rspOut = s.rspOut := rfl
@[simp] theorem State.emitLog_rx (s : State) (r : LogRecord) : (s.emitLog r).rx = s.rx := rfl
@[simp] theorem State.emitLog_rst (s : State) (r : LogRecord) : (s.emitLog r).rst = s.rst := rfl
@[simp] theorem State.emitLog_cfg (s : State) (r : LogRecord) : (s.emitLog r).cfg = s.cfg := rfl
@[simp] theorem State.emitLog_actReady (s : State) (r : LogRecord) : (s.emitLog r).actReady = s.actReady := rfl
@[simp] theorem State.emitLog_rspReady (s : State) (r : LogRecord) : (s.emitLog r).rspReady = s.rspReady := rfl
@[simp] theorem State.emitLog_pins (s : State) (r : LogRecord) : (s.emitLog r).pins = s.pins := rfl
@[simp] theorem State.emitLog_reqIn (s : State) (r : LogRecord) : (s.emitLog r).reqIn = s.reqIn := rfl
@[simp] theorem State.emitLog_actIn (s : State) (r : LogRecord) : (s.emitLog r).actIn = s.actIn := rfl
@[simp] theorem State.emitLog_acts (s : State) (r : LogRecord) : (s.emitLog r).acts = s.acts := rfl
@[simp] theorem State.emitLog_rsps (s : State) (r : LogRecord) : (s.emitLog r).rsps = s.rsps := rfl
@[simp] theorem State.emitLog_logs (s : State) (r : LogRecord) : (s.emitLog r).logs = s.logs ++ [r] := rfl
@[simp] theorem State.emitLog_draws (s : State) (r : LogRecord) : (s.emitLog r).draws = s.draws := rfl

/-! `idle` -/

@[simp] theorem State.idle_params (s : State) : (s.idle).params = s.params := rfl
@[simp] theorem State.idle_family (s : State) : (s.idle).family = s.family := rfl
@[simp] theorem State.idle_addr (s : State) : (s.idle).addr = s.addr := rfl
@[simp] theorem State.idle_rows (s : State) : (s.idle).rows = s.rows := rfl
@[simp] theorem State.idle_policy (s : State) : (s.idle).policy = s.policy := rfl
@[simp] theorem State.idle_EM (s : State) : (s.idle).EM = s.EM := rfl
@[simp] theorem State.idle_DC (s : State) : (s.idle).DC = s.DC := rfl
@[simp] theorem State.idle_FS (s : State) : (s.idle).FS = s.FS := rfl
@[simp] theorem State.idle_BL (s : State) : (s.idle).BL = s.BL := rfl
@[simp] theorem State.idle_phase (s : State) : (s.idle).phase = .ready := rfl
@[simp] theorem State.idle_script (s : State) : (s.idle).script = [] := rfl
@[simp] theorem State.idle_pos (s : State) : (s.idle).pos = 0 := rfl
@[simp] theorem State.idle_cur (s : State) : (s.idle).cur = none := rfl
@[simp] theorem State.idle_issued (s : State) : (s.idle).issued = false := rfl
@[simp] theorem State.idle_rspOut (s : State) : (s.idle).rspOut = none := rfl
@[simp] theorem State.idle_rx (s : State) : (s.idle).rx = s.rx := rfl
@[simp] theorem State.idle_rst (s : State) : (s.idle).rst = s.rst := rfl
@[simp] theorem State.idle_cfg (s : State) : (s.idle).cfg = s.cfg := rfl
@[simp] theorem State.idle_actReady (s : State) : (s.idle).actReady = s.actReady := rfl
@[simp] theorem State.idle_rspReady (s : State) : (s.idle).rspReady = s.rspReady := rfl
@[simp] theorem State.idle_pins (s : State) : (s.idle).pins = s.pins := rfl
@[simp] theorem State.idle_reqIn (s : State) : (s.idle).reqIn = s.reqIn := rfl
@[simp] theorem State.idle_actIn (s : State) : (s.idle).actIn = s.actIn := rfl
@[simp] theorem State.idle_acts (s : State) : (s.idle).acts = s.acts := rfl
@[simp] theorem State.idle_rsps (s : State) : (s.idle).rsps = s.rsps := rfl
@[simp] theorem State.idle_logs (s : State) : (s.idle).logs = s.logs := rfl
@[simp] theorem State.idle_draws (s : State) : (s.idle).draws = s.draws := rfl

/-! `start` -/

@[simp] theorem State.start_params (s : State) (ph : Phase) (c : Current) (sc : List Action) : (s.start ph c sc).params = s.params := rfl
@[simp] theorem State.start_family (s : State) (ph : Phase) (c : Current) (sc : List Action) : (s.start ph c sc).family = s.family := rfl
@[simp] theorem State.start_addr (s : State) (ph : Phase) (c : Current) (sc : List Action) : (s.start ph c sc).addr = s.addr := rfl
@[simp] theorem State.start_rows (s : State) (ph : Phase) (c : Current) (sc : List Action) : (s.start ph c sc).rows = s.rows := rfl
@[simp] theorem State.start_policy (s : State) (ph : Phase) (c : Current) (sc : List Action) : (s.start ph c sc).policy = s.policy := rfl
@[simp] theorem State.start_EM (s : State) (ph : Phase) (c : Current) (sc : List Action) : (s.start ph c sc).EM = s.EM := rfl
@[simp] theorem State.start_DC (s : State) (ph : Phase) (c : Current) (sc : List Action) : (s.start ph c sc).DC = s.DC := rfl
@[simp] theorem State.start_FS (s : State) (ph : Phase) (c : Current) (sc : List Action) : (s.start ph c sc).FS = s.FS := rfl
@[simp] theorem State.start_BL (s : State) (ph : Phase) (c : Current) (sc : List Action) : (s.start ph c sc).BL = s.BL := rfl
@[simp] theorem State.start_phase (s : State) (ph : Phase) (c : Current) (sc : List Action) : (s.start ph c sc).phase = ph := rfl
@[simp] theorem State.start_script (s : State) (ph : Phase) (c : Current) (sc : List Action) : (s.start ph c sc).script = sc := rfl
@[simp] theorem State.start_pos (s : State) (ph : Phase) (c : Current) (sc : List Action) : (s.start ph c sc).pos = 0 := rfl
@[simp] theorem State.start_cur (s : State) (ph : Phase) (c : Current) (sc : List Action) : (s.start ph c sc).cur = some c := rfl
@[simp] theorem State.start_issued (s : State) (ph : Phase) (c : Current) (sc : List Action) : (s.start ph c sc).issued = false := rfl
@[simp] theorem State.start_rspOut (s : State) (ph : Phase) (c : Current) (sc : List Action) : (s.start ph c sc).rspOut = none := rfl
@[simp] theorem State.start_rx (s : State) (ph : Phase) (c : Current) (sc : List Action) : (s.start ph c sc).rx = s.rx := rfl
@[simp] theorem State.start_rst (s : State) (ph : Phase) (c : Current) (sc : List Action) : (s.start ph c sc).rst = s.rst := rfl
@[simp] theorem State.start_cfg (s : State) (ph : Phase) (c : Current) (sc : List Action) : (s.start ph c sc).cfg = s.cfg := rfl
@[simp] theorem State.start_actReady (s : State) (ph : Phase) (c : Current) (sc : List Action) : (s.start ph c sc).actReady = s.actReady := rfl
@[simp] theorem State.start_rspReady (s : State) (ph : Phase) (c : Current) (sc : List Action) : (s.start ph c sc).rspReady = s.rspReady := rfl
@[simp] theorem State.start_pins (s : State) (ph : Phase) (c : Current) (sc : List Action) : (s.start ph c sc).pins = s.pins := rfl
@[simp] theorem State.start_reqIn (s : State) (ph : Phase) (c : Current) (sc : List Action) : (s.start ph c sc).reqIn = s.reqIn := rfl
@[simp] theorem State.start_actIn (s : State) (ph : Phase) (c : Current) (sc : List Action) : (s.start ph c sc).actIn = s.actIn := rfl
@[simp] theorem State.start_acts (s : State) (ph : Phase) (c : Current) (sc : List Action) : (s.start ph c sc).acts = s.acts := rfl
@[simp] theorem State.start_rsps (s : State) (ph : Phase) (c : Current) (sc : List Action) : (s.start ph c sc).rsps = s.rsps := rfl
@[simp] theorem State.start_logs (s : State) (ph : Phase) (c : Current) (sc : List Action) : (s.start ph c sc).logs = s.logs := rfl
@[simp] theorem State.start_draws (s : State) (ph : Phase) (c : Current) (sc : List Action) : (s.start ph c sc).draws = s.draws := rfl

/-! `samplePins`: only the pins' own fields change. -/

@[simp] theorem samplePins_params (s : State) : (samplePins s).params = s.params := by unfold samplePins; split <;> rfl
@[simp] theorem samplePins_family (s : State) : (samplePins s).family = s.family := by unfold samplePins; split <;> rfl
@[simp] theorem samplePins_addr (s : State) : (samplePins s).addr = s.addr := by unfold samplePins; split <;> rfl
@[simp] theorem samplePins_rows (s : State) : (samplePins s).rows = s.rows := by unfold samplePins; split <;> rfl
@[simp] theorem samplePins_policy (s : State) : (samplePins s).policy = s.policy := by unfold samplePins; split <;> rfl
@[simp] theorem samplePins_EM (s : State) : (samplePins s).EM = s.EM := by unfold samplePins; split <;> rfl
@[simp] theorem samplePins_DC (s : State) : (samplePins s).DC = s.DC := by unfold samplePins; split <;> rfl
@[simp] theorem samplePins_FS (s : State) : (samplePins s).FS = s.FS := by unfold samplePins; split <;> rfl
@[simp] theorem samplePins_BL (s : State) : (samplePins s).BL = s.BL := by unfold samplePins; split <;> rfl
@[simp] theorem samplePins_phase (s : State) : (samplePins s).phase = s.phase := by unfold samplePins; split <;> rfl
@[simp] theorem samplePins_script (s : State) : (samplePins s).script = s.script := by unfold samplePins; split <;> rfl
@[simp] theorem samplePins_pos (s : State) : (samplePins s).pos = s.pos := by unfold samplePins; split <;> rfl
@[simp] theorem samplePins_cur (s : State) : (samplePins s).cur = s.cur := by unfold samplePins; split <;> rfl
@[simp] theorem samplePins_issued (s : State) : (samplePins s).issued = s.issued := by unfold samplePins; split <;> rfl
@[simp] theorem samplePins_rspOut (s : State) : (samplePins s).rspOut = s.rspOut := by unfold samplePins; split <;> rfl
@[simp] theorem samplePins_rx (s : State) : (samplePins s).rx = s.rx := by unfold samplePins; split <;> rfl
@[simp] theorem samplePins_reqIn (s : State) : (samplePins s).reqIn = s.reqIn := by unfold samplePins; split <;> rfl
@[simp] theorem samplePins_actIn (s : State) : (samplePins s).actIn = s.actIn := by unfold samplePins; split <;> rfl
@[simp] theorem samplePins_acts (s : State) : (samplePins s).acts = s.acts := by unfold samplePins; split <;> rfl
@[simp] theorem samplePins_rsps (s : State) : (samplePins s).rsps = s.rsps := by unfold samplePins; split <;> rfl
@[simp] theorem samplePins_logs (s : State) : (samplePins s).logs = s.logs := by unfold samplePins; split <;> rfl
@[simp] theorem samplePins_draws (s : State) : (samplePins s).draws = s.draws := by unfold samplePins; split <;> rfl
@[simp] theorem samplePins_enc (s : State) : (samplePins s).enc = s.enc := by unfold samplePins; split <;> rfl
@[simp] theorem samplePins_F (s : State) : (samplePins s).F = s.F := by unfold samplePins; split <;> rfl
@[simp] theorem samplePins_P (s : State) : (samplePins s).P = s.P := by unfold samplePins; split <;> rfl

/-! What the encoders read, under each update. -/

@[simp] theorem State.enc_setEM (s : State) (v : Byte) : (s.setEM v).enc = s.enc := rfl
@[simp] theorem State.enc_setDC (s : State) (v : Byte) : (s.setDC v).enc = s.enc := rfl
@[simp] theorem State.enc_setBL (s : State) (v : Bool) : (s.setBL v).enc = { s.enc with BL := v } := rfl
@[simp] theorem State.enc_start (s : State) (ph : Phase) (c : Current) (sc : List Action) :
    (s.start ph c sc).enc = s.enc := rfl
@[simp] theorem State.F_setEM (s : State) (v : Byte) : (s.setEM v).F = s.F := rfl
@[simp] theorem State.F_setDC (s : State) (v : Byte) : (s.setDC v).F = s.F := rfl
@[simp] theorem State.F_setBL (s : State) (v : Bool) : (s.setBL v).F = s.F := rfl
@[simp] theorem State.F_start (s : State) (ph : Phase) (c : Current) (sc : List Action) :
    (s.start ph c sc).F = s.F := rfl
@[simp] theorem State.enc_params (s : State) : s.enc.params = s.params := rfl
@[simp] theorem State.enc_family (s : State) : s.enc.family = s.family := rfl
@[simp] theorem State.enc_addr (s : State) : s.enc.addr = s.addr := rfl
@[simp] theorem State.enc_BL (s : State) : s.enc.BL = s.BL := rfl
@[simp] theorem State.enc_P (s : State) : s.enc.P = s.P := rfl
@[simp] theorem State.enc_F (s : State) : s.enc.F = s.F := rfl

end Sys2Proof.Machine
end

