-- ==== Sys2Proof/Laws/Ops.lean ====
section
/-! SUPPORT. What each shared operation can do, said once: accepting, raising, register, shift, backlight and extended operations, the sequencer's steps, and runs. -/

namespace Sys2Proof.Machine

open Sys2Proof.Safety

/-! Acceptance and request-level errors. -/

theorem accept_eq (i : Instr) (s : State) (sc : List Action) : accept i s sc = .next (accepted i sc s) := rfl

theorem raise_eq (c : Current) (code : RspCode) (s : State) :
    raise c code s = .next (refused c (currentOpcode c) code s) := rfl

theorem whenFamily_same {f : Family} {i : Instr} {s : State} (body : State → Result) (h : s.family = f) :
    whenFamily f i s body = body s := if_pos h

theorem whenFamily_other {f : Family} {i : Instr} {s : State} (body : State → Result) (h : s.family ≠ f) :
    whenFamily f i s body = .next (refused (.request i) i.opcode .unsupported s) := if_neg h

theorem regSetDC_eq (i : Instr) (m : Byte) (on : Bool) (s : State) :
    regSetDC i m on s
      = .next (accepted i (cmd s.enc (s.F.cmdDC ||| setFlag s.DC m on)) { s with DC := setFlag s.DC m on }) := rfl

theorem regSetEM_eq (i : Instr) (m : Byte) (on : Bool) (s : State) :
    regSetEM i m on s
      = .next (accepted i (cmd s.enc (s.F.cmdEM ||| setFlag s.EM m on)) { s with EM := setFlag s.EM m on }) := rfl

theorem shiftOp_eq (i : Instr) (d r : Bool) (s : State) :
    shiftOp i d r s = .next (accepted i (cmd s.enc (shiftCommand s d r)) s) := rfl

theorem backlightOp_nibble (i : Instr) (on : Bool) {s : State} (h : s.family = .nibble) :
    backlightOp i on s = .next (accepted i [.wb s.addr (maskIf on s.P.blMask)] { s with BL := on }) := if_pos h

theorem extendedOp_byteMode (i : Instr) (sel v : Byte) {s : State} (h : s.family = .byteMode) :
    extendedOp i sel v s = .next (accepted i (envelopeScript s sel v) s) := if_pos h

/-- A request's state as it is accepted: only the shadows may differ. -/
structure ShadowsOnly (s s' : State) : Prop where
  rest : s' = { s with EM := s'.EM, DC := s'.DC, BL := s'.BL }

/-- Everything `exec` can do: refuse with a request-level error, or accept with a script after shadow writes only. -/
theorem exec_cases (i : Instr) (s : State) :
    (∃ code, exec i s = .next (refused (.request i) i.opcode code s))
      ∨ ∃ s' sc, exec i s = .next (accepted i sc s') ∧ ShadowsOnly s s' := by
  cases i with
  | cursorMove row col =>
    by_cases h : cursorRefused s row col = true
    · exact .inl ⟨.badOperand, by simp [exec, execCursorMove, h, raise_eq]; rfl⟩
    · exact .inr ⟨s, _, by simp [exec, execCursorMove, h]; rfl, ⟨rfl⟩⟩
  | backlightOn | backlightOff =>
    by_cases h : s.family = .nibble
    · exact .inr ⟨_, _, backlightOp_nibble _ _ h, ⟨rfl⟩⟩
    · exact .inl ⟨.unsupported, if_neg h⟩
  | setBrightness | fadeOff | fadeOnce | fadeBlink =>
    by_cases h : s.family = .byteMode
    · exact .inr ⟨_, _, extendedOp_byteMode _ _ _ h, ⟨rfl⟩⟩
    · exact .inl ⟨.unsupported, if_neg h⟩
  | _ => exact .inr ⟨_, _, rfl, ⟨rfl⟩⟩

/-! The sequencer. -/

theorem advance_inside {s : State} (h : s.pos + 1 < s.script.length) :
    advance s = { s with pos := s.pos + 1, issued := false } := if_pos h

theorem advance_last {s : State} (h : ¬s.pos + 1 < s.script.length) :
    advance s = finishScript { s with pos := s.pos + 1, issued := false } := if_neg h

/-- A receiver that accepts the action on offer has it issued; one that does not holds the block (R6). -/
theorem issueAction_ready (a : Action) {s : State} (h : s.actReady = true) :
    issueAction a s = { s with acts := s.acts ++ [a], issued := true } := if_pos h

theorem issueAction_held (a : Action) {s : State} (h : s.actReady = false) : issueAction a s = s := by simp [issueAction, h]

/-- A receiver that accepts the response on offer makes the block READY; one that does not holds it (R6, R231). -/
theorem offerResponse_ready (r : Response) {s : State} (h : s.rspReady = true) :
    offerResponse r s = answered r.op r.code s := if_pos h

theorem offerResponse_held (r : Response) {s : State} (h : s.rspReady = false) : offerResponse r s = s := by
  simp [offerResponse, h]

theorem runRequest_running {s : State} (h : s.rspOut = none) : runRequest s = runScript s := by simp [runRequest, h]

theorem runRequest_offering {s : State} {r : Response} (h : s.rspOut = some r) : runRequest s = offerResponse r s := by
  simp [runRequest, h]

/-- Issuing and awaiting are the two things a running script does (R121). -/
theorem runScript_issue {s : State} {a : Action} (ha : s.script[s.pos]? = some a) (h : s.issued = false) :
    runScript s = issueAction a s := by simp [runScript, ha, h]

theorem runScript_await {s : State} {a : Action} (ha : s.script[s.pos]? = some a) (h : s.issued = true) :
    runScript s = awaitCompletion a s := by simp [runScript, ha, h]

theorem completeAction_ok (a : Action) (s : State) : completeAction a false s = advance s := rfl

/-- Everything a completion can do: the script goes on, after a log record or not, or a PROPAGATE abort ends it (R236 to
R239). -/
theorem completeAction_cases (a : Action) (failed : Bool) (s : State) :
    completeAction a failed s = advance s
      ∨ (s.policy = .log ∧ failed = true ∧ a.isWrite = true
          ∧ completeAction a failed s = advance (s.emitLog ⟨curOpcode s, s.pos, a⟩))
      ∨ (s.policy = .propagate ∧ failed = true ∧ a.isWrite = true ∧ completeAction a failed s = abortScript s) := by
  cases failed
  · exact .inl rfl
  · cases hw : a.isWrite <;> cases hp : s.policy <;> simp [completeAction, busError, hw, hp]

/-- Everything a running script's step can do: nothing, because a receiver or a completion is not there; issue an action;
ignore a stale completion; take a completion; end (R6, R121, R231). -/
theorem runScript_cases (s : State) :
    runScript s = s
      ∨ (∃ a, s.script[s.pos]? = some a ∧ s.issued = false ∧ s.actReady = true
          ∧ runScript s = { s with acts := s.acts ++ [a], issued := true })
      ∨ (∃ rest, s.issued = true ∧ s.actIn = .stale :: rest ∧ runScript s = { s with actIn := rest })
      ∨ (∃ a c rest, s.script[s.pos]? = some a ∧ s.issued = true ∧ s.actIn = c :: rest ∧ c ≠ .stale
          ∧ runScript s = completeAction a (c == .err) { s with actIn := rest })
      ∨ (s.script[s.pos]? = none ∧ runScript s = finishScript s) := by
  cases ha : s.script[s.pos]? with
  | none => exact .inr (.inr (.inr (.inr ⟨rfl, by simp [runScript, ha]⟩)))
  | some a =>
    rcases Bool.eq_false_or_eq_true s.issued with hi | hi
    · rw [runScript_await ha hi]
      unfold awaitCompletion
      split
      · exact .inl rfl
      · rename_i rest hc
        exact .inr (.inr (.inr (.inl ⟨a, .ok, rest, rfl, hi, hc, by simp, rfl⟩)))
      · rename_i rest hc
        exact .inr (.inr (.inr (.inl ⟨a, .err, rest, rfl, hi, hc, by simp, rfl⟩)))
      · rename_i rest hc
        exact .inr (.inr (.inl ⟨rest, hi, hc, rfl⟩))
    · rw [runScript_issue ha hi]
      rcases Bool.eq_false_or_eq_true s.actReady with hr | hr
      · exact .inr (.inl ⟨a, rfl, hi, hr, issueAction_ready a hr⟩)
      · exact .inl (issueAction_held a hr)

/-- Everything a step of BUSY can do: wait for the receiver of the response on offer, have it accepted, or run the script. -/
theorem runRequest_cases (s : State) :
    (∃ r, s.rspOut = some r ∧ s.rspReady = false ∧ runRequest s = s)
      ∨ (∃ r, s.rspOut = some r ∧ s.rspReady = true ∧ runRequest s = answered r.op r.code s)
      ∨ (s.rspOut = none ∧ runRequest s = runScript s) := by
  cases ho : s.rspOut with
  | none => exact .inr (.inr ⟨rfl, runRequest_running ho⟩)
  | some r =>
    rw [runRequest_offering ho]
    rcases Bool.eq_false_or_eq_true s.rspReady with hr | hr
    · exact .inr (.inl ⟨r, rfl, hr, offerResponse_ready r hr⟩)
    · exact .inl ⟨r, rfl, hr, offerResponse_held r hr⟩

/-! The step, by phase. -/

theorem samplePins_quiet {s : State} (h : PinsQuiet s) : samplePins s = s := by simp [samplePins, h.2]

theorem rst_samplePins (s : State) : (samplePins s).rst = rstNow s := by
  cases h : s.pins <;> simp [samplePins, rstNow, h]

/-- Sampling takes the levels of the coming step and changes nothing else. -/
theorem samplePins_eq (s : State) : samplePins s = sampled s := by
  obtain ⟨_, _, _, _, _, _, _, _, _, _, _, _, _, _, _, _, _, _, _, _, pins, _, _, _, _, _, _⟩ := s
  cases pins <;> rfl

theorem Running.samplePins {s : State} (h : Running s) : Running (samplePins s) := by
  simpa [Running] using h

/-- A running script with `rst` low: the step is the script's (R121). -/
theorem step_runs {s : State} (hr : rstNow s = false) (h : Running s) : step s = .next (runScript (samplePins s)) := by
  rcases h with h | ⟨h, ho⟩
  · simp [step, phaseStep, rst_samplePins, hr, h]
  · simp [step, phaseStep, rst_samplePins, hr, h, runRequest, ho]

theorem step_running {s : State} (hq : PinsQuiet s) (h : Running s) : step s = .next (runScript s) := by
  rw [step_runs _ h, samplePins_quiet hq]
  simp [rstNow, hq.1, hq.2]

/-- BUSY with a response on offer and `rst` low: the step is the receiver's (R6). -/
theorem step_offers {s : State} {r : Response} (hr : rstNow s = false) (h : s.phase = .busy) (ho : s.rspOut = some r) :
    step s = .next (offerResponse r (samplePins s)) := by
  simp [step, phaseStep, rst_samplePins, hr, h, runRequest, ho]

theorem step_ready {s : State} (hq : PinsQuiet s) (h : s.phase = .ready) : step s = acceptByte s := by
  simp [step, samplePins_quiet hq, phaseStep, hq.1, h]

theorem step_reset {s : State} (h : rstNow s = true) : step s = .next (assertReset (samplePins s)) := by
  simp [step, phaseStep, rst_samplePins, h]

end Sys2Proof.Machine

namespace Sys2Proof.Safety

open Sys2Proof.Machine

/-! Runs. -/

theorem run_zero (s : State) : run 0 s = .next s := rfl

theorem coreRun_succ (M : Host.Core) {k : Nat} {s t : M.State} (h : M.step s = .next t) :
    M.run (k + 1) s = M.run k t := by
  rw [Host.Core.run, h]

theorem coreRun_one (M : Host.Core) (s : M.State) : M.run 1 s = M.step s := by
  rw [Host.Core.run]
  cases M.step s <;> rfl

theorem coreRun_add (M : Host.Core) {m n : Nat} {s t : M.State} (h : M.run m s = .next t) :
    M.run (m + n) s = M.run n t := by
  induction m generalizing s with
  | zero => cases h; rw [Nat.zero_add]
  | succ m ih =>
    rw [Host.Core.run] at h
    rw [Nat.succ_add, Host.Core.run]
    cases hs : M.step s with
    | next s' => rw [hs] at h; exact ih h
    | fault r => rw [hs] at h; cases h
    | refused r => rw [hs] at h; cases h

theorem run_succ {k : Nat} {s t : State} (h : step s = .next t) : run (k + 1) s = run k t :=
  coreRun_succ Sys2Proof.core h

theorem run_one (s : State) : run 1 s = step s := coreRun_one Sys2Proof.core s

/-- Two runs in a row are one run. -/
theorem run_add {m n : Nat} {s t : State} (h : run m s = .next t) : run (m + n) s = run n t :=
  coreRun_add Sys2Proof.core h

/-- A write's `err` under the policy, and everything else as a success (R236). -/
theorem completeAction_success (a : Action) (c : Completion) (s : State) (h : fails a c = false) :
    completeAction a (c == .err) s = advance s := by
  rw [fails, Bool.and_comm] at h
  rw [completeAction, h]
  rfl

theorem completeAction_failure (a : Action) (c : Completion) (s : State) (h : fails a c = true) :
    completeAction a (c == .err) s = busError a s := by
  rw [fails, Bool.and_comm] at h
  rw [completeAction, h]
  rfl

/-- One action of a running script, accepted at once and completed: two steps (R121). -/
theorem run_one_action {s : State} {a : Action} {c : Completion} {rest : List Completion} (hq : PinsQuiet s)
    (hact : s.actReady = true) (hp : Running s) (hi : s.issued = false) (ha : s.script[s.pos]? = some a)
    (hc : s.actIn = c :: rest) (hs : c ≠ .stale) (k : Nat) :
    run (k + 2) s
      = run k (completeAction a (c == .err) { s with acts := s.acts ++ [a], issued := true, actIn := rest }) := by
  let u := { s with acts := s.acts ++ [a], issued := true }
  have h1 : step s = .next u := by rw [step_running hq hp, runScript_issue ha hi, issueAction_ready a hact]
  have h2 : step u = .next (awaitCompletion a u) := by
    rw [step_running (s := u) hq hp, runScript_await (s := u) ha rfl]
  rw [run_succ h1, run_succ h2]
  simp only [awaitCompletion, u, hc]
  cases c <;> first | rfl | contradiction

/-- Where nothing changes in one step, nothing changes in a run. -/
theorem run_still {s : State} (h : step s = .next s) (k : Nat) : run k s = .next s := by
  induction k with
  | zero => rfl
  | succ k ih => rw [run_succ h, ih]

end Sys2Proof.Safety
end

