-- ==== Sys2Proof/Laws/Params.lean ====
section
/-! SUPPORT. What a well-formed parameter set gives (spec/00_scope.md R8, R9), and the bit facts its masks rest on. -/

namespace Sys2Proof.Machine

/-- The checks a well-formed parameter set passes, one by one. -/
theorem WfParams_checks (p : WfParams) :
    p.val.typed = true ∧ p.val.item1 = true ∧ p.val.item2 = true ∧ p.val.nibbleFam.wf = true
      ∧ p.val.byteFam.wf = true ∧ p.val.item7 = true ∧ p.val.item8 = true ∧ p.val.item9 = true
      ∧ p.val.item10 = true := by
  have h := p.ok
  simp only [Params.wf, Bool.and_eq_true] at h
  obtain ⟨⟨⟨⟨⟨⟨⟨⟨h0, h1⟩, h2⟩, h3⟩, h4⟩, h7⟩, h8⟩, h9⟩, h10⟩ := h
  exact ⟨h0, h1, h2, h3, h4, h7, h8, h9, h10⟩

/-- R9 item 7: the waits have DOC's minimums. -/
theorem WfParams_waits (p : WfParams) :
    1000 ≤ p.val.tSettle ∧ 1530 ≤ p.val.tClear ∧ 4100 ≤ p.val.tModeEntry := by
  have h := (WfParams_checks p).2.2.2.2.2.1
  simp only [Params.item7, Bool.and_eq_true, decide_eq_true_eq] at h
  exact ⟨h.1.1, h.1.2, h.2⟩

/-- R8: the glyph row count is 7 or 8. -/
theorem WfParams_glyphRows (p : WfParams) : p.val.glyphRows = 7 ∨ p.val.glyphRows = 8 := by
  have h := (WfParams_checks p).1
  simp only [Params.typed, Bool.and_eq_true, Bool.or_eq_true, beq_iff_eq] at h
  exact h.2

/-- R9 item 8: no `Nib` step stands in the byte-mode preamble. -/
theorem WfParams_preamble (p : WfParams) : ∀ st ∈ p.val.bytePreamble, st.isNib = false := by
  have h := (WfParams_checks p).2.2.2.2.2.2.1
  simpa [Params.item8] using h

/-- Each family's parameters pass R9 items 3 to 6, and its flags are single bits (R8). -/
theorem WfParams_family (p : WfParams) (f : Family) : (p.val.fam f).wf = true ∧ (p.val.fam f).typed = true := by
  have h := WfParams_checks p
  have ht := h.1
  simp only [Params.typed, Bool.and_eq_true] at ht
  cases f
  · exact ⟨h.2.2.2.1, ht.1.1.2⟩
  · exact ⟨h.2.2.2.2.1, ht.1.2⟩

/-- Two different single bits have no bit in common. -/
theorem oneBit_disjoint {a b : Byte} (ha : oneBit a = true) (hb : oneBit b = true) (h : a ≠ b) : a &&& b = 0 := by
  have cases : ∀ m : Byte, oneBit m = true → m ∈ ([1, 2, 4, 8, 16, 32, 64, 128] : List Byte) := by decide
  have all : ∀ a ∈ ([1, 2, 4, 8, 16, 32, 64, 128] : List Byte), ∀ b ∈ ([1, 2, 4, 8, 16, 32, 64, 128] : List Byte),
      a ≠ b → a &&& b = 0 := by decide
  exact all a (cases a ha) b (cases b hb) h

/-- R9 items 1 and 2: the three masks are disjoint from each other and from the nibble field. -/
theorem WfParams_masks (p : WfParams) :
    p.val.rsMask &&& p.val.enMask = 0 ∧ p.val.rsMask &&& p.val.blMask = 0 ∧ p.val.enMask &&& p.val.blMask = 0
      ∧ p.val.rsMask &&& ((0x0F : Byte) <<< p.val.nibShift) = 0 ∧ p.val.enMask &&& ((0x0F : Byte) <<< p.val.nibShift) = 0
      ∧ p.val.blMask &&& ((0x0F : Byte) <<< p.val.nibShift) = 0 ∧ p.val.nibShift ≤ 4 := by
  obtain ⟨h0, h1, h2, -⟩ := WfParams_checks p
  simp only [Params.typed, Params.item1, Params.item2, Bool.and_eq_true, decide_eq_true_eq, bne_iff_ne, beq_iff_eq]
    at h0 h1 h2
  obtain ⟨⟨⟨⟨⟨r, e⟩, b⟩, re⟩, rb⟩, eb⟩ := h1
  have split : ∀ a b c d : Byte, (a ||| b ||| c) &&& d = 0 → a &&& d = 0 ∧ b &&& d = 0 ∧ c &&& d = 0 := by
    intro a b c d h
    have hb : ∀ i, ((a.getLsbD i || b.getLsbD i || c.getLsbD i) && d.getLsbD i) = false := by
      intro i
      have := congrArg (fun x : Byte => x.getLsbD i) h
      simpa [BitVec.getLsbD_and, BitVec.getLsbD_or] using this
    refine ⟨?_, ?_, ?_⟩ <;>
      (apply BitVec.eq_of_getLsbD_eq
       intro i _
       have := hb i
       revert this
       simp only [BitVec.getLsbD_and]
       cases a.getLsbD i <;> cases b.getLsbD i <;> cases c.getLsbD i <;> cases d.getLsbD i <;> simp)
  obtain ⟨s1, s2, s3⟩ := split _ _ _ _ h2
  exact ⟨oneBit_disjoint r e re, oneBit_disjoint r b rb, oneBit_disjoint e b eb, s1, s2, s3, h0.1.1.1⟩

/-- A placed nibble stays inside the nibble field. -/
theorem nibble_in_field {k : Nat} (hk : k ≤ 4) (n : Nibble) :
    (n.setWidth 8 <<< k : Byte) &&& ((0x0F : Byte) <<< k) = n.setWidth 8 <<< k := by
  have all : ∀ k < 5, ∀ n : Nibble, (n.setWidth 8 <<< k : Byte) &&& ((0x0F : Byte) <<< k) = n.setWidth 8 <<< k := by decide
  exact all k (by omega) n

/-- A placed nibble is read back by the inverse shift. -/
theorem nibble_read_back {k : Nat} (hk : k ≤ 4) (n : Nibble) : (n.setWidth 8 <<< k : Byte) >>> k = n.setWidth 8 := by
  have all : ∀ k < 5, ∀ n : Nibble, (n.setWidth 8 <<< k : Byte) >>> k = n.setWidth 8 := by decide
  exact all k (by omega) n

/-- A byte outside the nibble field reads as nibble 0. -/
theorem outside_field_reads_zero {k : Nat} (hk : k ≤ 4) {m : Byte} (h : m &&& ((0x0F : Byte) <<< k) = 0) :
    (m >>> k) &&& (0x0F : Byte) = 0 := by
  have all : ∀ k < 5, ∀ m : Byte, m &&& ((0x0F : Byte) <<< k) = 0 → (m >>> k) &&& (0x0F : Byte) = 0 := by decide
  exact all k (by omega) m h

end Sys2Proof.Machine
end

