-- ==== Sys2Proof/Laws/Encoders.lean ====
section
/-! SUPPORT. What the encoders emit, said once: how many actions, and of which kinds (spec/40_encoders.md R122 to R130). -/

namespace Sys2Proof.Machine

open Sys2Proof.Safety

theorem waitFor_zero : waitFor 0 = [] := rfl

theorem waitFor_pos {t : Nat} (h : t ≠ 0) : waitFor t = [.wait t] := if_neg h

/-- Three writes, and two waits when the step wait is not 0 (R123). -/
theorem nibWrite_length (e : Enc) (n : Nibble) (rs : Bool) :
    (nibWrite e n rs).length = 3 + (if e.P.tNibStep = 0 then 0 else 2) := by
  unfold nibWrite waitFor
  split <;> simp

theorem nibWrite_length_le (e : Enc) (n : Nibble) (rs : Bool) : (nibWrite e n rs).length ≤ 5 := by
  rw [nibWrite_length]
  split <;> omega

/-- The expander bytes of one nibble: EN low, high, low (R123). -/
theorem nibWrite_bytes (e : Enc) (n : Nibble) (rs : Bool) :
    (nibWrite e n rs).filterMap expanderByte = [xb e n rs false, xb e n rs true, xb e n rs false] := by
  unfold nibWrite waitFor
  split <;> simp [expanderByte, List.filterMap_cons]

theorem cmd_length_le (e : Enc) (b : Byte) : (cmd e b).length ≤ 10 := by
  have h1 := nibWrite_length_le e (lowNibble b) false
  have h2 := nibWrite_length_le e (highNibble b) false
  unfold cmd
  cases e.family <;> simp [nibByte, byteWrite]
  omega

theorem dat_length_le (e : Enc) (b : Byte) : (dat e b).length ≤ 10 := by
  have h1 := nibWrite_length_le e (lowNibble b) true
  have h2 := nibWrite_length_le e (highNibble b) true
  unfold dat
  cases e.family <;> simp [nibByte, byteWrite]
  omega

theorem cmd_ne_nil (e : Enc) (b : Byte) : cmd e b ≠ [] := by
  cases h : e.family <;> simp [cmd, h, nibByte, byteWrite, nibWrite]

theorem dat_ne_nil (e : Enc) (b : Byte) : dat e b ≠ [] := by
  cases h : e.family <;> simp [dat, h, nibByte, byteWrite, nibWrite]

/-- Everything a nibble write emits (R123). -/
theorem mem_nibWrite {e : Enc} {n : Nibble} {rs : Bool} {a : Action} (h : a ∈ nibWrite e n rs) :
    (∃ en, a = .wb e.addr (xb e n rs en)) ∨ (a = .wait e.P.tNibStep ∧ 1 ≤ e.P.tNibStep) := by
  by_cases ht : e.P.tNibStep = 0
  · simp only [nibWrite, ht, waitFor_zero, List.append_nil, List.mem_append, List.mem_singleton] at h
    rcases h with (h | h) | h <;> exact .inl ⟨_, h⟩
  · simp only [nibWrite, waitFor_pos ht, List.mem_append, List.mem_singleton] at h
    rcases h with (((h | h) | h) | h) | h
    · exact .inl ⟨_, h⟩
    · exact .inr ⟨h, by omega⟩
    · exact .inl ⟨_, h⟩
    · exact .inr ⟨h, by omega⟩
    · exact .inl ⟨_, h⟩

/-- Everything a byte-mode write emits (R125). -/
theorem mem_byteWrite {e : Enc} {b : Byte} {rs : Bool} {a : Action} (h : a ∈ byteWrite e b rs) :
    a = .wbr e.addr (if rs then e.P.modeData else e.P.modeCmd) b ∨ (a = .wait e.P.tSettle ∧ 1000 ≤ e.P.tSettle) := by
  simp only [byteWrite, List.mem_cons, List.not_mem_nil, or_false] at h
  rcases h with h | h
  · exact .inl h
  · exact .inr ⟨h, (WfParams_waits e.params).1⟩

end Sys2Proof.Machine
end

