-- ==== Sys2Proof/Laws/PerInstr.lean ====
section
/-! SUPPORT. Statements about every request as syntax: its length is `L(op)` and its opcode is one of R94 (spec/30_encoding.md R90, R91, R94). -/

namespace Sys2Proof.Laws.RequestLength

/-- The encoded request has the length its opcode fixes, and its opcode is in the map (R90, R94). -/
def Statement (i : Instr) : Prop := (encode i).length = requestLength i.opcode ∧ isOpcode i.opcode = true

theorem writeChar (ch : Byte) : Statement (.writeChar ch) := ⟨rfl, rfl⟩
theorem clear : Statement .clear := ⟨rfl, rfl⟩
theorem home : Statement .home := ⟨rfl, rfl⟩
theorem cursorMove (row col : Byte) : Statement (.cursorMove row col) := ⟨rfl, rfl⟩
theorem displayOn : Statement .displayOn := ⟨rfl, rfl⟩
theorem displayOff : Statement .displayOff := ⟨rfl, rfl⟩
theorem cursorOn : Statement .cursorOn := ⟨rfl, rfl⟩
theorem cursorOff : Statement .cursorOff := ⟨rfl, rfl⟩
theorem blinkOn : Statement .blinkOn := ⟨rfl, rfl⟩
theorem blinkOff : Statement .blinkOff := ⟨rfl, rfl⟩
theorem displayShiftLeft : Statement .displayShiftLeft := ⟨rfl, rfl⟩
theorem displayShiftRight : Statement .displayShiftRight := ⟨rfl, rfl⟩
theorem cursorShiftLeft : Statement .cursorShiftLeft := ⟨rfl, rfl⟩
theorem cursorShiftRight : Statement .cursorShiftRight := ⟨rfl, rfl⟩
theorem displayLtr : Statement .displayLtr := ⟨rfl, rfl⟩
theorem displayRtl : Statement .displayRtl := ⟨rfl, rfl⟩
theorem displayShiftOn : Statement .displayShiftOn := ⟨rfl, rfl⟩
theorem displayShiftOff : Statement .displayShiftOff := ⟨rfl, rfl⟩
theorem createChar (slot : Byte) (g : Glyph) : Statement (.createChar slot g) := ⟨rfl, rfl⟩
theorem backlightOn : Statement .backlightOn := ⟨rfl, rfl⟩
theorem backlightOff : Statement .backlightOff := ⟨rfl, rfl⟩
theorem setBrightness (value : Byte) : Statement (.setBrightness value) := ⟨rfl, rfl⟩
theorem fadeOff : Statement .fadeOff := ⟨rfl, rfl⟩
theorem fadeOnce (rate : Byte) : Statement (.fadeOnce rate) := ⟨rfl, rfl⟩
theorem fadeBlink (rate : Byte) : Statement (.fadeBlink rate) := ⟨rfl, rfl⟩

end Sys2Proof.Laws.RequestLength
end

