-- ==== Sys2Proof/Tests/Slice0.lean ====
section
/-! SUPPORT. The model's own tests. Expected values come from spec/95_test_vectors.md (the vector's id stands in each comment) or from the rule named. The last part shows, for each statement that has hypotheses, concrete inputs that meet them. -/

namespace Sys2Proof.Tests

open Sys2Proof Sys2Proof.Machine Sys2Proof.Safety

/-! ## Small states and readers -/

/-- An instantiation of the OPEN entries, for tests only. -/
def openTest : OpenEntries :=
  ⟨[], ⟨0xA1, 0xA2, 0xA3, 0xA4⟩, 0xB1, 0xB2, ⟨0xC1, 0xC2, 0xC3, 0xC4⟩, 0x0, 0x2, 0x3⟩

/-- CFG-GK over `openTest`. -/
def base : Params := gkParams openTest

/-- The nibble family in READY, as the conventions of 95_test_vectors.md section 1. -/
def nib : State :=
  { State.reset with params := gk openTest, phase := .ready, script := [], pos := 0, cur := none }

/-- The byte-mode family in READY, with 4 rows at address 0x3C. -/
def byt : State := { nib with family := .byteMode, addr := 0x3C, rows := 4 }

/-- Rows 8 and a step wait of 2 µs: the longest request scripts. -/
def long : State :=
  { nib with params := ⟨{ base with glyphRows := 8, tNibStep := 2 }, by decide⟩ }

/-- The glyph of W6. -/
def padlock : Glyph := ⟨0x0E, 0x11, 0x11, 0x11, 0x1F, 0x1B, 0x1B, 0x00⟩

/-- WB actions to the test address. -/
def wbs (l : List Byte) : List Action := l.map (Action.wb 0x27)

/-- A byte-mode write with its settle wait. -/
def wbr (m v : Byte) : List Action := [.wbr 0x3C m v, .wait 1000]

/-- What a request is answered with. -/
structure Answer where
  phase  : Phase
  script : List Action
  rsp    : Option Response
deriving DecidableEq, Repr

/-- The answer in a next state. -/
def got (r : Result) : Option Answer :=
  match r with
  | .next t => some ⟨t.phase, t.script, t.rspOut⟩
  | _       => none

/-- What a step leaves and emits. -/
structure Emission where
  phase : Phase
  pos   : Nat
  rsp   : Option Response
  logs  : List LogRecord
deriving DecidableEq, Repr

/-- The emission in a next state. -/
def emitted (r : Result) : Option Emission :=
  match r with
  | .next t => some ⟨t.phase, t.pos, t.rspOut, t.logs⟩
  | _       => none

/-- The state after one step, or the state itself. -/
def stepped (s : State) : State :=
  match step s with
  | .next t => t
  | _       => s

/-- `s` running the script of `i` at position `k`, its action issued, with completion `c` arriving. -/
def atAction (i : Instr) (s : State) (k : Nat) (c : Completion) : State :=
  { after i s with pos := k, issued := true, actIn := [c] }

/-! ## Decoding: words written out from R91 and R94 -/

theorem test_decode_text :
    decode [0x01, 0x48] = .ok (.writeChar 0x48) [] ∧ decode [0x02] = .ok .clear [] ∧ decode [0x03] = .ok .home []
      ∧ decode [0x04, 0x02, 0x01] = .ok (.cursorMove 2 1) [] := by decide

theorem test_decode_display_control :
    decode [0x10] = .ok .displayOn [] ∧ decode [0x11] = .ok .displayOff [] ∧ decode [0x12] = .ok .cursorOn []
      ∧ decode [0x13] = .ok .cursorOff [] ∧ decode [0x14] = .ok .blinkOn [] ∧ decode [0x15] = .ok .blinkOff [] := by decide

theorem test_decode_shift :
    decode [0x20] = .ok .displayShiftLeft [] ∧ decode [0x21] = .ok .displayShiftRight []
      ∧ decode [0x22] = .ok .cursorShiftLeft [] ∧ decode [0x23] = .ok .cursorShiftRight [] := by decide

theorem test_decode_entry_mode :
    decode [0x30] = .ok .displayLtr [] ∧ decode [0x31] = .ok .displayRtl []
      ∧ decode [0x32] = .ok .displayShiftOn [] ∧ decode [0x33] = .ok .displayShiftOff [] := by decide

theorem test_decode_glyph_backlight :
    decode [0x40, 0x03, 0x0E, 0x11, 0x11, 0x11, 0x1F, 0x1B, 0x1B, 0x00] = .ok (.createChar 3 padlock) []
      ∧ decode [0x50] = .ok .backlightOn [] ∧ decode [0x51] = .ok .backlightOff [] := by decide

theorem test_decode_extended :
    decode [0x60, 0x80] = .ok (.setBrightness 128) [] ∧ decode [0x70] = .ok .fadeOff []
      ∧ decode [0x71, 0x0F] = .ok (.fadeOnce 15) [] ∧ decode [0x72, 0x05] = .ok (.fadeBlink 5) [] := by decide

/-- DV1 to DV4. -/
theorem test_decode_streams :
    decodeStream 9 [0x02, 0x03, 0x10] = ([.inl .clear, .inl .home, .inl .displayOn], [])
      ∧ decodeStream 9 [0x01, 0x02] = ([.inl (.writeChar 2)], [])
      ∧ decodeStream 9 [0x04, 0x04, 0x01, 0x02] = ([.inl (.cursorMove 4 1), .inl .clear], [])
      ∧ decodeStream 9 [0x40, 0x03, 0x0E, 0x11, 0x11, 0x11, 0x1F, 0x1B, 0x1B, 0x00, 0x02]
          = ([.inl (.createChar 3 padlock), .inl .clear], []) := by decide

/-- DV6, ER10 to ER13: illegal bytes, and a request that stops partway. -/
theorem test_decode_illegal_and_short :
    decode [0x34] = .illegal 0x34 [] ∧ decode [0x00] = .illegal 0x00 [] ∧ decode [0xFF] = .illegal 0xFF []
      ∧ decodeStream 9 [0x05, 0x02] = ([.inr 0x05, .inl .clear], [])
      ∧ decodeStream 9 [0x04, 0x02] = ([], [0x04, 0x02]) := by decide

/-- The opcode table's words: the first byte is the least significant. -/
theorem test_table_words :
    decodeTableWord 16 0x4801 = some (.writeChar 0x48) ∧ decodeTableWord 8 0x02 = some .clear
      ∧ decodeTableWord 24 0x010204 = some (.cursorMove 2 1)
      ∧ decodeTableWord 80 0x001B1B1F1111110E0340 = some (.createChar 3 padlock)
      ∧ decodeTableWord 8 0x34 = none := by decide

/-- A table word placed in the reset state is what the next step executes, and nothing is left of it. -/
theorem test_fetch_word_after_reset :
    got (step (State.reset.withFetchWord 16 0x4801)) = got (exec (.writeChar 0x48) State.reset.idle)
      ∧ (stepped (State.reset.withFetchWord 80 0x001B1B1F1111110E0340)).cur = some (.request (.createChar 3 padlock))
      ∧ (stepped (State.reset.withFetchWord 24 0x010204)).rx = []
      ∧ (stepped (State.reset.withFetchWord 24 0x010204)).reqIn = [] := by decide

/-! ## Well-formedness: each check refuses a term that breaks it -/

theorem test_parameters_wf : base.wf = true := by decide
theorem test_wf_nibShift : { base with nibShift := 5 }.typed = false := by decide
theorem test_wf_glyphRows : { base with glyphRows := 6 }.typed = false := by decide
theorem test_wf_one_bit_flags :
    (∀ f ∈ [{ gkFamily with emLTR := 0x06 }, { gkFamily with emShift := 0 }, { gkFamily with dcDisplay := 0x0C },
            { gkFamily with dcCursor := 0 }, { gkFamily with dcBlink := 0x03 }, { gkFamily with shDisplay := 0 },
            { gkFamily with shRight := 0x06 }], f.typed = false)
      ∧ { base with nibbleFam := { gkFamily with emLTR := 0x06 } }.wf = false
      ∧ { base with byteFam := { gkFamily with shDisplay := 0 } }.wf = false := by decide
theorem test_wf_item1_one_bit :
    { base with rsMask := 0x03 }.item1 = false ∧ { base with enMask := 0 }.item1 = false
      ∧ { base with blMask := 0x0A }.item1 = false := by decide
theorem test_wf_item1_distinct :
    { base with rsMask := 0x04 }.item1 = false ∧ { base with rsMask := 0x08 }.item1 = false
      ∧ { base with enMask := 0x08 }.item1 = false := by decide
theorem test_wf_item2 :
    { base with rsMask := 0x10 }.item2 = false ∧ { base with enMask := 0x80 }.item2 = false
      ∧ { base with nibShift := 0 }.item2 = false := by decide
theorem test_wf_item3 :
    { gkFamily with cmdEM := 0x06 }.item3 = false ∧ { gkFamily with cmdDC := 0x09 }.item3 = false
      ∧ { gkFamily with cmdShift := 0x14 }.item3 = false := by decide
theorem test_wf_item4 :
    { gkFamily with emShift := 0x02 }.item4 = false ∧ { gkFamily with dcCursor := 0x04 }.item4 = false
      ∧ { gkFamily with dcBlink := 0x04 }.item4 = false ∧ { gkFamily with dcBlink := 0x02 }.item4 = false
      ∧ { gkFamily with shRight := 0x08 }.item4 = false := by decide
theorem test_wf_item5 : { gkFamily with ddramMax := 0xFF }.item5 = false := by decide
theorem test_wf_item6 : { gkFamily with cmdCGRAM := 0x60 }.item6 = false := by decide
theorem test_wf_family_items_count :
    { base with nibbleFam := { gkFamily with cmdCGRAM := 0x60 } }.wf = false
      ∧ { base with byteFam := { gkFamily with ddramMax := 0xFF } }.wf = false := by decide
theorem test_wf_item7 :
    { base with tSettle := 999 }.item7 = false ∧ { base with tClear := 1529 }.item7 = false
      ∧ { base with tModeEntry := 4099 }.item7 = false := by decide
theorem test_wf_item8 : { base with bytePreamble := [.cmd 0x2A, .nib 0x3] }.item8 = false := by decide
theorem test_wf_item9 : { base with modeData := 0x80 }.item9 = false := by decide
theorem test_wf_item10 :
    { base with fadeModeOff := 0x01 }.item10 = false ∧ { base with fadeModeOnce := 0x28 }.item10 = false
      ∧ { base with fadeModeBlink := 0x3F }.item10 = false := by decide

/-- ER24 to ER30. -/
theorem test_straps_invalid :
    (⟨2, 0x27, 2, 0⟩ : Straps).family? = none ∧ (⟨3, 0x27, 2, 0⟩ : Straps).family? = none
      ∧ (⟨0, 0x27, 0, 0⟩ : Straps).rows? = none ∧ (⟨0, 0x27, 5, 0⟩ : Straps).rows? = none
      ∧ (⟨0, 0x27, 7, 0⟩ : Straps).rows? = none ∧ (⟨0, 0x27, 2, 3⟩ : Straps).policy? = none
      ∧ (⟨0, 0x27, 4, 0⟩ : Straps).rows? = some 4 := by decide

/-- R97: operands out of range, of the wrong kind or number. -/
theorem test_asm_line_wf :
    (AsmLine.request .setBrightness [.num 256]).wf = false ∧ (AsmLine.request .writeChar [.chr 0x20AC]).wf = false
      ∧ (AsmLine.request .clear [.num 1]).wf = false ∧ (AsmLine.request .cursorMove [.num 1]).wf = false
      ∧ (AsmLine.request .createChar [.num 3, .rows [0, 0, 0, 0, 0, 0, 0]]).wf = false
      ∧ (AsmLine.request .createChar [.num 3, .rows [0, 0, 0, 0, 0, 0, 0, 256]]).wf = false
      ∧ (AsmLine.request .writeChar [.rows []]).wf = false ∧ (AsmLine.writeString [0x48, 256]).wf = false := by decide

/-! ## The assembler: R97, R101, DV7 -/

theorem test_assemble_create_char :
    assembleLine "CREATE_CHAR 3, [0x0E, 0x11, 0x11, 0x11, 0x1F, 0x1B, 0x1B, 0x00]".toList
      = some [0x40, 0x03, 0x0E, 0x11, 0x11, 0x11, 0x1F, 0x1B, 0x1B, 0x00] := by decide

theorem test_assemble_strings_and_comments :
    assembleLine "WRITE_STRING \"HI\"".toList = some [0x01, 0x48, 0x01, 0x49]
      ∧ assembleLine "CURSOR_MOVE 2, 1 ; second row".toList = some [0x04, 0x02, 0x01]
      ∧ assembleLine "WRITE_CHAR 'H'".toList = some [0x01, 0x48] := by decide

/-- Above 127 the code is the model's choice, the Unicode code point (log entry 19); past 255 R97 refuses it. -/
theorem test_assemble_character_codes :
    assembleLine "WRITE_CHAR 'é'".toList = some [0x01, 0xE9]
      ∧ assembleLine "WRITE_CHAR 'Ω'".toList = none ∧ assembleLine "WRITE_STRING \"Ω\"".toList = none := by decide

theorem test_assemble_refuses :
    assembleLine "SET_BRIGHTNESS 256".toList = none ∧ assembleLine "CLEAR 1".toList = none
      ∧ assembleLine "NO_SUCH_OP".toList = none := by decide

/-! ## Encoders: E1 to E15 -/

theorem test_nibble_bytes :
    nibByte nib.enc 0x00 false = wbs [0x08, 0x0C, 0x08, 0x08, 0x0C, 0x08]
      ∧ nibByte { nib with BL := false }.enc 0xFF true = wbs [0xF1, 0xF5, 0xF1, 0xF1, 0xF5, 0xF1]
      ∧ nibByte nib.enc 0xA5 false = wbs [0x58, 0x5C, 0x58, 0xA8, 0xAC, 0xA8] := by decide

/-- E12: waits inside a nibble, none between the two. -/
theorem test_nibble_step_wait :
    nibByte long.enc 0x41 true
      = wbs [0x19] ++ [.wait 2] ++ wbs [0x1D] ++ [.wait 2] ++ wbs [0x19, 0x49] ++ [.wait 2] ++ wbs [0x4D]
          ++ [.wait 2] ++ wbs [0x49] := by decide

theorem test_byte_mode_bytes :
    byteWrite byt.enc 0x00 false = [.wbr 0x3C 0x80 0x00, .wait 1000]
      ∧ byteWrite byt.enc 0xFF true = [.wbr 0x3C 0x40 0xFF, .wait 1000] := by decide

/-! ## Text and cursor: T1 to T33 -/

theorem test_writeChar :
    got (exec (.writeChar 0x48) nib) = some ⟨.busy, wbs [0x89, 0x8D, 0x89, 0x49, 0x4D, 0x49], none⟩
      ∧ got (exec (.writeChar 0x41) byt) = some ⟨.busy, wbr 0x40 0x41, none⟩ := by decide

theorem test_clear :
    got (exec .clear nib) = some ⟨.busy, wbs [0x18, 0x1C, 0x18, 0x08, 0x0C, 0x08] ++ [.wait 1530], none⟩
      ∧ got (exec .clear byt) = some ⟨.busy, wbr 0x80 0x01 ++ [.wait 1530], none⟩ := by decide

theorem test_home :
    got (exec .home nib) = some ⟨.busy, wbs [0x08, 0x0C, 0x08, 0x88, 0x8C, 0x88], none⟩
      ∧ got (exec .home byt) = some ⟨.busy, wbr 0x80 0x80, none⟩ := by decide

/-- CURSOR_MOVE with a given row count. -/
def moved (s : State) (rows : Nat) (row col : Byte) : Option Answer :=
  got (exec (.cursorMove row col) { s with rows := rows })

/-- T10, T12, T14, T16, T19. -/
theorem test_cursorMove_nibble :
    moved nib 1 3 5 = some ⟨.busy, wbs [0x48, 0x4C, 0x48, 0x88, 0x8C, 0x88], none⟩
      ∧ moved nib 2 0 1 = some ⟨.busy, wbs [0x08, 0x0C, 0x08, 0x88, 0x8C, 0x88], none⟩
      ∧ moved nib 3 4 1 = some ⟨.busy, wbs [0x48, 0x4C, 0x48, 0x98, 0x9C, 0x98], none⟩
      ∧ moved nib 4 4 20 = some ⟨.busy, wbs [0x78, 0x7C, 0x78, 0xE8, 0xEC, 0xE8], none⟩
      ∧ moved nib 1 1 128 = some ⟨.busy, wbs [0xF8, 0xFC, 0xF8, 0xF8, 0xFC, 0xF8], none⟩ := by decide

/-- T20, T21, T22, T24, T25, T27. -/
theorem test_cursorMove_refused_and_byteMode :
    moved nib 1 1 129 = some ⟨.busy, [], some ⟨0x04, .badOperand⟩⟩
      ∧ moved nib 2 1 0 = some ⟨.busy, [], some ⟨0x04, .badOperand⟩⟩
      ∧ moved byt 4 2 1 = some ⟨.busy, wbr 0x80 0xA0, none⟩ ∧ moved byt 4 4 32 = some ⟨.busy, wbr 0x80 0xFF, none⟩
      ∧ moved byt 4 4 33 = some ⟨.busy, [], some ⟨0x04, .badOperand⟩⟩
      ∧ moved byt 2 2 1 = some ⟨.busy, wbr 0x80 0xC0, none⟩ := by decide

/-! ## Register operations: RG1 to RG19 -/

theorem test_displayOn :
    got (exec .displayOn nib) = some ⟨.busy, wbs [0xC8, 0xCC, 0xC8, 0x08, 0x0C, 0x08], none⟩
      ∧ (after .displayOn { nib with DC := 0x00 }).DC = 0x04 := by decide
theorem test_displayOff :
    got (exec .displayOff nib) = some ⟨.busy, wbs [0x88, 0x8C, 0x88, 0x08, 0x0C, 0x08], none⟩
      ∧ (after .displayOff nib).DC = 0x00 := by decide
theorem test_cursorOn :
    got (exec .cursorOn byt) = some ⟨.busy, wbr 0x80 0x0E, none⟩ ∧ (after .cursorOn nib).DC = 0x06 := by decide
theorem test_cursorOff :
    got (exec .cursorOff { byt with DC := 0x06 }) = some ⟨.busy, wbr 0x80 0x0C, none⟩
      ∧ (after .cursorOff { nib with DC := 0x07 }).DC = 0x05 := by decide
theorem test_blinkOn :
    got (exec .blinkOn nib) = some ⟨.busy, wbs [0xD8, 0xDC, 0xD8, 0x08, 0x0C, 0x08], none⟩
      ∧ (after .blinkOn { nib with DC := 0x06 }).DC = 0x07 := by decide
theorem test_blinkOff :
    got (exec .blinkOff { byt with DC := 0x05 }) = some ⟨.busy, wbr 0x80 0x0C, none⟩
      ∧ (after .blinkOff { nib with DC := 0x05 }).DC = 0x04 := by decide
theorem test_displayLtr :
    got (exec .displayLtr nib) = some ⟨.busy, wbs [0x68, 0x6C, 0x68, 0x08, 0x0C, 0x08], none⟩
      ∧ (after .displayLtr { nib with EM := 0x01 }).EM = 0x03 := by decide
theorem test_displayRtl :
    got (exec .displayRtl nib) = some ⟨.busy, wbs [0x48, 0x4C, 0x48, 0x08, 0x0C, 0x08], none⟩
      ∧ (after .displayRtl nib).EM = 0x00 := by decide
theorem test_displayShiftOn :
    got (exec .displayShiftOn byt) = some ⟨.busy, wbr 0x80 0x07, none⟩ ∧ (after .displayShiftOn nib).EM = 0x03 := by decide
theorem test_displayShiftOff :
    got (exec .displayShiftOff { byt with EM := 0x03 }) = some ⟨.busy, wbr 0x80 0x06, none⟩
      ∧ (after .displayShiftOff { nib with EM := 0x03 }).EM = 0x02 := by decide

/-- RG4: on then off from the init state does not restore it; RG5: from 0x00 it does. -/
theorem test_display_on_off :
    (after .displayOff (after .displayOn nib)).DC = 0x00
      ∧ (after .displayOff (after .displayOn { nib with DC := 0x00 })).DC = 0x00 := by decide

/-- RG14 to RG17. -/
theorem test_displayShiftLeft : got (exec .displayShiftLeft byt) = some ⟨.busy, wbr 0x80 0x18, none⟩ := by decide
theorem test_displayShiftRight :
    got (exec .displayShiftRight nib) = some ⟨.busy, wbs [0xC8, 0xCC, 0xC8, 0x18, 0x1C, 0x18], none⟩ := by decide
theorem test_cursorShiftLeft : got (exec .cursorShiftLeft byt) = some ⟨.busy, wbr 0x80 0x10, none⟩ := by decide
theorem test_cursorShiftRight :
    got (exec .cursorShiftRight nib) = some ⟨.busy, wbs [0x48, 0x4C, 0x48, 0x18, 0x1C, 0x18], none⟩ := by decide

/-! ## Glyphs, backlight, extended mode: GB1 to GB21 -/

/-- W6: 48 WB, row 7 not sent. -/
theorem test_createChar_nibble :
    got (exec (.createChar 3 padlock) nib) = some ⟨.busy,
      wbs [0x88, 0x8C, 0x88, 0x58, 0x5C, 0x58, 0xE9, 0xED, 0xE9, 0x09, 0x0D, 0x09, 0x19, 0x1D, 0x19, 0x19, 0x1D, 0x19]
        ++ wbs [0x19, 0x1D, 0x19, 0x19, 0x1D, 0x19, 0x19, 0x1D, 0x19, 0x19, 0x1D, 0x19, 0xF9, 0xFD, 0xF9, 0x19, 0x1D, 0x19]
        ++ wbs [0xB9, 0xBD, 0xB9, 0x19, 0x1D, 0x19, 0xB9, 0xBD, 0xB9, 0x19, 0x1D, 0x19], none⟩ := by decide

/-- GB5, and GB3: the slot is masked. -/
theorem test_createChar_byteMode :
    got (exec (.createChar 11 padlock) byt) = some ⟨.busy,
      wbr 0x80 0x58 ++ wbr 0x40 0x0E ++ wbr 0x40 0x11 ++ wbr 0x40 0x11 ++ wbr 0x40 0x11 ++ wbr 0x40 0x1F
        ++ wbr 0x40 0x1B ++ wbr 0x40 0x1B, none⟩ := by decide

/-- GB7, GB8, GB10, GB11. -/
theorem test_backlightOff :
    got (exec .backlightOff nib) = some ⟨.busy, wbs [0x00], none⟩ ∧ (after .backlightOff nib).BL = false
      ∧ got (exec .backlightOff byt) = some ⟨.busy, [], some ⟨0x51, .unsupported⟩⟩ := by decide
theorem test_backlightOn :
    got (exec .backlightOn { nib with BL := false }) = some ⟨.busy, wbs [0x08], none⟩
      ∧ (after .backlightOn { nib with BL := false }).BL = true
      ∧ got (exec .backlightOn { byt with BL := false }) = some ⟨.busy, [], some ⟨0x50, .unsupported⟩⟩
      ∧ (after .backlightOn { byt with BL := false }).BL = false := by decide

/-- GB12, GB15: the value byte is the sixth. -/
theorem test_setBrightness :
    got (exec (.setBrightness 128) byt) = some ⟨.busy,
      wbr 0x80 0xA1 ++ wbr 0x80 0xA2 ++ wbr 0x80 0xA3 ++ wbr 0x80 0xA4 ++ wbr 0x80 0xB1 ++ wbr 0x80 0x80
        ++ wbr 0x80 0xC1 ++ wbr 0x80 0xC2 ++ wbr 0x80 0xC3 ++ wbr 0x80 0xC4, none⟩
      ∧ got (exec (.setBrightness 128) nib) = some ⟨.busy, [], some ⟨0x60, .unsupported⟩⟩ := by decide

/-- GB16 to GB21: selector and value byte of the envelope. -/
theorem test_fadeOff :
    (after .fadeOff byt).script[8]? = some (.wbr 0x3C 0x80 0xB2) ∧ (after .fadeOff byt).script[10]? = some (.wbr 0x3C 0x80 0x00)
      ∧ got (exec .fadeOff nib) = some ⟨.busy, [], some ⟨0x70, .unsupported⟩⟩ := by decide
theorem test_fadeOnce :
    (after (.fadeOnce 0x05) byt).script[10]? = some (.wbr 0x3C 0x80 0x25)
      ∧ (after (.fadeOnce 0x1F) byt).script[10]? = some (.wbr 0x3C 0x80 0x2F)
      ∧ got (exec (.fadeOnce 3) nib) = some ⟨.busy, [], some ⟨0x71, .unsupported⟩⟩ := by decide
theorem test_fadeBlink :
    (after (.fadeBlink 0x00) byt).script[10]? = some (.wbr 0x3C 0x80 0x30)
      ∧ (after (.fadeBlink 0xFF) byt).script[10]? = some (.wbr 0x3C 0x80 0x3F)
      ∧ got (exec (.fadeBlink 3) nib) = some ⟨.busy, [], some ⟨0x72, .unsupported⟩⟩ := by decide

/-! ## Errors and policies: ER10 to ER23 -/

/-- ER12: the illegal byte is answered, the next byte still waits. -/
theorem test_illegal_opcode :
    got (step { nib with reqIn := [0x05, 0x02] }) = some ⟨.busy, [], some ⟨0x05, .illegalOpcode⟩⟩
      ∧ (stepped { nib with reqIn := [0x05, 0x02] }).reqIn = [0x02] := by decide

/-- ER15: under SWALLOW the script goes on and nothing is reported. -/
theorem test_swallow :
    emitted (step (atAction .displayOff nib 2 .err)) = some ⟨.busy, 3, none, []⟩
      ∧ (stepped (atAction .displayOff nib 2 .err)).DC = 0x00 := by decide

/-- ER16. -/
theorem test_log :
    emitted (step (atAction .displayOff { nib with policy := .log } 2 .err))
      = some ⟨.busy, 3, none, [⟨0x11, 2, .wb 0x27 0x88⟩]⟩ := by decide

/-- ER17: the shadow keeps the new value, the script stops at position 2. -/
theorem test_propagate :
    emitted (step (atAction .displayOff { nib with policy := .propagate } 2 .err))
        = some ⟨.busy, 2, some ⟨0x11, .busError⟩, []⟩
      ∧ (stepped (atAction .displayOff { nib with policy := .propagate } 2 .err)).DC = 0x00 := by decide

/-- R231: with the last completion the response OK is on offer. -/
theorem test_last_completion :
    emitted (step (atAction .displayOff nib 5 .ok)) = some ⟨.busy, 6, some ⟨0x11, .ok⟩, []⟩ := by decide

/-- BUSY with the response OK of DISPLAY_OFF on offer, and the next request's byte waiting. -/
def answering : State := { stepped (atAction .displayOff nib 5 .ok) with reqIn := [0x02] }

/-- R6, R231: a response that is not accepted holds the block BUSY; accepted, the block is READY with an empty sequencer. -/
theorem test_response_acceptance :
    stepped { answering with rspReady := false } = { answering with rspReady := false }
      ∧ (stepped answering).phase = .ready ∧ (stepped answering).rsps = [⟨0x11, .ok⟩]
      ∧ (stepped answering).rspOut = none ∧ (stepped answering).script = [] ∧ (stepped answering).reqIn = [0x02] := by decide

/-- R6: an action that is not accepted is not issued, and stays on offer. -/
theorem test_action_acceptance :
    stepped { after .displayOff nib with actReady := false } = { after .displayOff nib with actReady := false }
      ∧ actOffer (after .displayOff nib) = some (.wb 0x27 0x88)
      ∧ actOffer (stepped (after .displayOff nib)) = none := by decide

/-! ## Reset and init: R45, R270 to R278, section 7 of 95_test_vectors.md -/

theorem test_reset_state :
    State.reset.phase = .init ∧ State.reset.addr = 0x27 ∧ State.reset.rows = 2 ∧ State.reset.policy = .swallow
      ∧ State.reset.EM = 0x02 ∧ State.reset.DC = 0x04 ∧ State.reset.FS = 0x08 ∧ State.reset.BL = true
      ∧ State.reset.rx = [] ∧ State.reset.pos = 0 := by decide

/-- Section 7: 46 actions; positions 3, 12, 15, 39 and 45. -/
theorem test_init_listing :
    State.reset.script.length = 46 ∧ State.reset.script[3]? = some (.wait 4100)
      ∧ State.reset.script[12]? = some (.wb 0x27 0x28) ∧ State.reset.script[15]? = some (.wb 0x27 0x88)
      ∧ State.reset.script[39]? = some (.wait 1530) ∧ State.reset.script[45]? = some (.wb 0x27 0x88) := by decide

/-- ER24, ER27 and ER29: CONFIG_ERROR, with no action. -/
theorem test_config_error :
    emitted (step { nib with phase := .reset, cfg := ⟨2, 0x27, 2, 0⟩ }) = some ⟨.configError, 0, none, []⟩
      ∧ emitted (step { nib with phase := .reset, cfg := ⟨0, 0x27, 5, 0⟩ }) = some ⟨.configError, 0, none, []⟩
      ∧ emitted (step { nib with phase := .reset, cfg := ⟨0, 0x27, 2, 3⟩ }) = some ⟨.configError, 0, none, []⟩ := by decide

/-- P5: a failed display-control write of the byte-mode init script under PROPAGATE. -/
theorem test_init_failed :
    let s := stepped { byt with phase := .reset, cfg := ⟨1, 0x3C, 2, 2⟩ }
    s.script.length = 11
      ∧ emitted (step { s with pos := 2, issued := true, actIn := [.err] }) = some ⟨.initFailed, 2, none, []⟩ := by decide

/-- R270: `rst` drops the request under way, and a response on offer. -/
theorem test_reset_drops_partial_request :
    (stepped { nib with rx := [0x04, 0x02], pins := [⟨true, resetStraps, true, true⟩] }).phase = .reset
      ∧ (stepped { nib with rx := [0x04, 0x02], pins := [⟨true, resetStraps, true, true⟩] }).rx = []
      ∧ (stepped { answering with rst := true }).rspOut = none ∧ (stepped { answering with rst := true }).rsps = [] := by decide

/-- R73, R121: issue, then wait for the completion. -/
theorem test_issue_and_hang :
    (stepped (after (.writeChar 0x48) nib)).acts = wbs [0x89] ∧ (stepped (after (.writeChar 0x48) nib)).issued = true
      ∧ stepped (stepped (after (.writeChar 0x48) nib)) = stepped (after (.writeChar 0x48) nib) := by decide

/-! ## Witnesses: inputs that meet the hypotheses of the statements -/

/-- A request under way, nothing issued yet. -/
def busy : State := after (.writeChar 0x48) nib

/-- The same with its first action issued and a completion arriving. -/
def issuedBusy (c : Completion) : State := { busy with issued := true, actIn := [c] }

/-- READY with request bytes on offer. -/
def offered (bs : List Byte) : State := { nib with reqIn := bs }

theorem witness_quiet_and_idle : PinsQuiet nib ∧ Idle nib ∧ PinsQuiet busy ∧ busy.phase = .busy :=
  ⟨⟨rfl, rfl⟩, ⟨rfl, rfl, rfl, rfl, rfl, rfl, rfl⟩, ⟨rfl, rfl⟩, rfl⟩

theorem witness_EncodeDecodeAgree : decode [0x04, 0x02, 0x01, 0x10] = .ok (.cursorMove 2 1) [0x10] := by decide

theorem witness_IllegalOpcodeByteIsAnswered :
    isOpcode 0x00 = false ∧ isOpcode 0x01 = true ∧ PinsQuiet (offered [0x00, 0x02]) ∧ Idle (offered [0x00, 0x02])
      ∧ (offered [0x00, 0x02]).reqIn = [0x00, 0x02] ∧ (offered [0x00, 0x02]).rspReady = true :=
  ⟨rfl, rfl, ⟨rfl, rfl⟩, ⟨rfl, rfl, rfl, rfl, rfl, rfl, rfl⟩, rfl, rfl⟩

theorem witness_StepRunsTheDecodedRequest :
    PinsQuiet (offered [0x02]) ∧ (offered [0x02]).phase = .ready ∧ (offered [0x02]).reqIn = 0x02 :: []
      ∧ decode ((offered [0x02]).rx ++ [0x02]) = .ok .clear []
      ∧ decode ((offered [0x04]).rx ++ [0x04]) = .incomplete := ⟨⟨rfl, rfl⟩, rfl, rfl, rfl, rfl⟩

theorem witness_RequestBytesReachTheirMeaning :
    PinsQuiet (offered [0x01, 0x48, 0x02]) ∧ (offered [0x01, 0x48, 0x02]).rx = []
      ∧ (offered [0x01, 0x48, 0x02]).reqIn = encode (.writeChar 0x48) ++ [0x02] := ⟨⟨rfl, rfl⟩, rfl, rfl⟩

/-- The invariant holds of an idle block, so its statements are not empty. -/
theorem witness_inv_idle : Inv nib where
  rows_legal _ := by decide
  fs_init _ := by decide
  em_other_bits _ := by decide
  dc_other_bits _ := by decide
  bl_byte_mode _ h := nomatch h
  rx_only_ready h := absurd rfl h
  rx_incomplete := rfl
  no_script _ := ⟨rfl, rfl, rfl⟩
  issued_running h := nomatch h
  pos_in_script h := by rcases h with h | ⟨h, -⟩ <;> exact nomatch h
  rsp_busy _ h := nomatch h
  init_script h := nomatch h
  busy_request h := nomatch h
  legal_script _ h := nomatch h
  legal_waits _ h := nomatch h

/-- The invariant holds of a block that runs a request. -/
theorem witness_inv_busy : Inv busy where
  rows_legal _ := by decide
  fs_init _ := by decide
  em_other_bits _ := by decide
  dc_other_bits _ := by decide
  bl_byte_mode _ h := nomatch h
  rx_only_ready _ := rfl
  rx_incomplete := rfl
  no_script h := by rcases h with h | h | h <;> exact nomatch h
  issued_running h := nomatch h
  pos_in_script _ := by decide
  rsp_busy _ h := nomatch h
  init_script h := nomatch h
  busy_request _ := ⟨by decide, fun _ => ⟨_, rfl, rfl⟩⟩
  legal_script a h := by
    have all : ∀ x ∈ wbs [0x89, 0x8D, 0x89, 0x49, 0x4D, 0x49],
        ∃ v, x = .wb 0x27 v ∧ v &&& 0x08 = 0x08 ∧ v &&& ~~~(0xFD : Byte) = 0 := by
      simp [wbs]
    obtain ⟨v, rfl, h1, h2⟩ := all a h
    exact ⟨rfl, rfl, h1, h2⟩
  legal_waits _ h := nomatch h

theorem witness_EmittedActionsAreLegal :
    step busy = .next (stepped busy) ∧ (stepped busy).acts = busy.acts ++ [.wb 0x27 0x89] := ⟨rfl, rfl⟩

theorem witness_PositionAdvancesByCompletion :
    (stepped busy).phase = busy.phase ∧ (stepped busy).pos = 0
      ∧ (stepped (issuedBusy .ok)).phase = .busy ∧ (stepped (issuedBusy .ok)).pos = 1 := by decide

theorem witness_ResetAbandonsEverything :
    rstNow { busy with rst := true } = true ∧ rstNow { busy with pins := [⟨true, resetStraps, true, true⟩] } = true
      ∧ PinsQuiet (issuedBusy .stale) ∧ Running (issuedBusy .stale) ∧ (issuedBusy .stale).issued = true
      ∧ (issuedBusy .stale).pos < (issuedBusy .stale).script.length :=
  ⟨rfl, rfl, ⟨rfl, rfl⟩, .inr ⟨rfl, rfl⟩, rfl, by decide⟩

/-- Both clauses, at the ends of the legal ranges. -/
theorem witness_ReleaseSamplesTheStraps :
    rstNow { nib with phase := .reset } = false
      ∧ (∀ c ∈ [(⟨0, 0, 1, 0⟩ : Straps), ⟨1, 0x7F, 4, 2⟩],
          c.family.toNat ≤ 1 ∧ 1 ≤ c.rows.toNat ∧ c.rows.toNat ≤ 4 ∧ c.policy.toNat ≤ 2)
      ∧ (∀ c ∈ [(⟨2, 0, 1, 0⟩ : Straps), ⟨1, 0, 0, 0⟩, ⟨1, 0, 5, 0⟩, ⟨0, 0, 4, 3⟩],
          ¬(c.family.toNat ≤ 1 ∧ 1 ≤ c.rows.toNat ∧ c.rows.toNat ≤ 4 ∧ c.policy.toNat ≤ 2)) := by decide

theorem witness_ConfigurationIsFixedBetweenResets :
    rstNow busy = false ∧ busy.phase ≠ .reset ∧ step busy = .next (stepped busy) := ⟨rfl, by decide, rfl⟩

theorem witness_HaltedPhasesWaitForReset :
    { nib with phase := .configError }.phase = .configError ∧ { nib with phase := .initFailed }.phase = .initFailed
      ∧ rstNow { nib with phase := .initFailed } = false := ⟨rfl, rfl, rfl⟩

theorem witness_RequestBytesHeldOutsideReady :
    busy.phase ≠ .ready ∧ step busy = .next (stepped busy) ∧ busy.rx = [] := ⟨by decide, rfl, rfl⟩

theorem witness_HangsLastUntilReset :
    HungOnAction { busy with issued := true } ∧ HungOnRequest { nib with rx := [0x04, 0x02] }
      ∧ PinsQuiet { nib with rx := [0x04, 0x02] } ∧ rstNow { nib with rx := [0x04, 0x02], rst := true } = true :=
  ⟨⟨.inr ⟨rfl, rfl⟩, rfl, by decide, rfl⟩, ⟨rfl, by decide, rfl⟩, ⟨rfl, rfl⟩, rfl⟩

theorem witness_QuiescentBlockStaysQuiescent :
    Quiescent nib ∧ Quiescent { nib with phase := .configError } ∧ Quiescent { nib with phase := .initFailed } :=
  ⟨.inl ⟨rfl, rfl, rfl⟩, .inr (.inl rfl), .inr (.inr rfl)⟩

theorem witness_EncoderInputsFixedWhileRunning :
    (busy.phase = .busy ∨ busy.phase = .init) ∧ rstNow busy = false ∧ (stepped busy).phase = busy.phase :=
  ⟨.inl rfl, rfl, rfl⟩

theorem witness_StatusShowsThePhase :
    ∀ p ∈ [Phase.reset, .init, .ready, .busy, .configError, .initFailed], { nib with phase := p }.phase = p := by decide

theorem witness_families : nib.family = .nibble ∧ byt.family = .byteMode ∧ nib.enc.family = .nibble
    ∧ byt.enc.family = .byteMode := by decide

theorem witness_NibbleByteFraming_bytes :
    ((nibByte nib.enc 0x41 true).filterMap expanderByte)[0]? = some 0x19
      ∧ ((nibByte nib.enc 0x41 true).filterMap expanderByte)[5]? = some 0x49 := by decide

theorem witness_NibbleByteFraming_unique :
    xb { nib.enc with BL := true } 0xF true false = xb { nib.enc with BL := true } 0xF true false := rfl

theorem witness_CommandFieldsAreLossless :
    (∀ n ∈ [(0x00 : Byte), 0x7F], n &&& ~~~gkFamily.ddramMax = 0)
      ∧ gkFamily.cmdShift ||| maskIf true gkFamily.shDisplay ||| maskIf false gkFamily.shRight
          = gkFamily.cmdShift ||| maskIf true gkFamily.shDisplay ||| maskIf false gkFamily.shRight := by decide

theorem witness_InitScriptActions :
    ∀ st ∈ [PreambleStep.cmd 0x2A, .dat 0x71], ∀ t, st ≠ .wait t := by simp

/-- The clauses of CURSOR_MOVE meet at column 0 and at the highest address. -/
theorem witness_CursorMoveSetsAddressOrIsRefused :
    1 ≤ nib.rows ∧ nib.rows ≤ 4 ∧ 1 ≤ byt.rows ∧ byt.rows ≤ 4 ∧ ((0 : Byte) = 0)
      ∧ ((128 : Byte) ≠ 0 ∧ (128 : Byte).toNat - 1 + 0x00 ≤ nib.F.ddramMax.toNat)
      ∧ ((129 : Byte).toNat - 1 + 0x00 > nib.F.ddramMax.toNat)
      ∧ ((32 : Byte).toNat - 1 + 0x60 ≤ byt.F.ddramMax.toNat) ∧ ((33 : Byte).toNat - 1 + 0x60 > byt.F.ddramMax.toNat) := by
  decide

theorem witness_RowsPastTheLastClamp :
    nib.rows < (3 : Byte).toNat ∧ (1 - 1) + rowOffset nib.family nib.rows (min 3 nib.rows) ≤ nib.F.ddramMax.toNat
      ∧ exec (.cursorMove 3 1) nib = .next (after (.cursorMove 3 1) nib)
      ∧ exec (.cursorMove (BitVec.ofNat 8 nib.rows) 1) nib = .next (after (.cursorMove (BitVec.ofNat 8 nib.rows) 1) nib) :=
  ⟨by decide, by decide, rfl, rfl⟩

theorem witness_RegisterOpsChangeOneFlag :
    (.displayOn, FamilyParams.dcDisplay, true) ∈ dcOps ∧ exec .displayOn nib = .next (after .displayOn nib)
      ∧ nib.F.dcCursor ∈ [nib.F.dcDisplay, nib.F.dcCursor, nib.F.dcBlink] ∧ nib.F.dcCursor ≠ nib.F.dcDisplay
      ∧ (.displayLtr, FamilyParams.emLTR, true) ∈ emOps ∧ exec .displayLtr nib = .next (after .displayLtr nib)
      ∧ nib.F.emShift ≠ nib.F.emLTR :=
  ⟨by simp [dcOps], rfl, by simp, by decide, by simp [emOps], rfl, by decide⟩

theorem witness_ShadowFlagLaws :
    (.displayOn, FamilyParams.dcDisplay, true) ∈ dcOps ∧ (.displayOff, FamilyParams.dcDisplay, false) ∈ dcOps
      ∧ (.cursorOn, FamilyParams.dcCursor, true) ∈ dcOps ∧ nib.F.dcDisplay ≠ nib.F.dcCursor
      ∧ (.displayLtr, FamilyParams.emLTR, true) ∈ emOps ∧ (.displayRtl, FamilyParams.emLTR, false) ∈ emOps
      ∧ (.displayShiftOn, FamilyParams.emShift, true) ∈ emOps ∧ nib.F.emLTR ≠ nib.F.emShift :=
  ⟨by simp [dcOps], by simp [dcOps], by simp [dcOps], by decide, by simp [emOps], by simp [emOps], by simp [emOps],
    by decide⟩

theorem witness_RequestFrame :
    exec .clear nib = .next (after .clear nib) ∧ .clear ∉ emOps.map Prod.fst ∧ .clear ∉ dcOps.map Prod.fst
      ∧ Instr.clear ∉ [.backlightOn, .backlightOff] := ⟨rfl, by decide, by decide, by decide⟩

theorem witness_RequestErrorsArePrecise :
    Instr.backlightOn.supported byt.family = false ∧ exec .backlightOn byt = .next (after .backlightOn byt)
      ∧ Instr.clear.supported byt.family = true ∧ exec .clear byt = .next (after .clear byt) := ⟨rfl, rfl, rfl, rfl⟩

theorem witness_RequestScriptsHaveAtMost90Actions :
    long.family = .nibble ∧ long.P.glyphRows = 8 ∧ 0 < long.P.tNibStep
      ∧ exec (.createChar 3 padlock) long = .next (after (.createChar 3 padlock) long) := ⟨rfl, rfl, by decide, rfl⟩

theorem witness_SwallowIgnoresBusErrors :
    PinsQuiet (issuedBusy .err) ∧ Running (issuedBusy .err) ∧ (issuedBusy .err).issued = true
      ∧ (issuedBusy .err).pos < (issuedBusy .err).script.length ∧ (issuedBusy .err).policy = .swallow :=
  ⟨⟨rfl, rfl⟩, .inr ⟨rfl, rfl⟩, rfl, by decide, rfl⟩

theorem witness_WaitNeverErrs :
    PinsQuiet (atAction .clear nib 6 .err) ∧ Running (atAction .clear nib 6 .err)
      ∧ (atAction .clear nib 6 .err).script[(atAction .clear nib 6 .err).pos]? = some (.wait 1530) :=
  ⟨⟨rfl, rfl⟩, .inr ⟨rfl, rfl⟩, rfl⟩

/-- For LOG and for PROPAGATE: a write outstanding, `err` arriving. -/
theorem witness_failed_write :
    ∀ pol ∈ [Policy.log, .propagate],
      let s := atAction .displayOff { nib with policy := pol } 2 .err
      s.rst = false ∧ s.pins = [] ∧ s.phase = .busy ∧ s.rspOut = none ∧ s.rspReady = true
        ∧ s.cur = some (.request .displayOff) ∧ s.issued = true
        ∧ s.script[s.pos]? = some (.wb 0x27 0x88) ∧ (Action.wb 0x27 0x88).isWrite = true ∧ s.policy = pol
        ∧ s.actIn = .err :: [] := by simp [atAction, after]; decide

theorem witness_LogRecordsTheFailedWrite :
    let s := atAction .displayOff { nib with policy := .log } 2 .err
    step { s with actIn := .ok :: [] } = .next (stepped { s with actIn := .ok :: [] })
      ∧ step { s with actIn := .err :: [] } = .next (stepped { s with actIn := .err :: [] }) := ⟨rfl, rfl⟩

/-- The init clause of PROPAGATE. -/
theorem witness_PropagateEndsTheScript :
    let s := { State.reset with policy := .propagate, issued := true, actIn := [.err] }
    s.phase = .init ∧ s.cur = some .initSequence ∧ s.script[s.pos]? = some (.wb 0x27 0x38) ∧ s.actIn = .err :: [] :=
  ⟨rfl, rfl, rfl, rfl⟩

/-- All four clauses: the three policies, with and without a failed write. -/
theorem witness_AcceptedScriptRunsToItsResponse :
    ∀ pol ∈ [Policy.swallow, .log, .propagate], ∀ cs ∈ [[Completion.ok], [.err]],
      let s := { (after .backlightOff { nib with policy := pol }) with actIn := cs ++ [Completion.ok] }
      s.rst = false ∧ s.pins = [] ∧ s.actReady = true ∧ s.rspReady = true ∧ s.phase = .busy ∧ s.rspOut = none
        ∧ s.cur = some (.request .backlightOff) ∧ s.pos = 0 ∧ s.issued = false
        ∧ s.script ≠ [] ∧ cs.length = s.script.length ∧ Completion.stale ∉ cs ∧ s.policy = pol
        ∧ firstFailure s.script cs = (if cs = [.err] then some 0 else none) := by decide

/-- All four clauses: the three policies, with and without a failed write (the init listing's pos 15, section 7). -/
theorem witness_InitScriptRunsToReady :
    ∀ pol ∈ [Policy.swallow, .log, .propagate],
      ∀ cs ∈ [List.replicate 46 Completion.ok, List.replicate 15 .ok ++ List.replicate 31 .err],
      let s := { State.reset with policy := pol, actIn := cs ++ [] }
      s.rst = false ∧ s.pins = [] ∧ s.actReady = true ∧ s.phase = .init ∧ s.cur = some .initSequence ∧ s.pos = 0
        ∧ s.issued = false ∧ s.script ≠ [] ∧ cs.length = s.script.length ∧ Completion.stale ∉ cs ∧ s.policy = pol
        ∧ firstFailure s.script cs = (if cs = List.replicate 46 .ok then none else some 15) := by decide

theorem witness_RequestRunsFromBytesToResponse :
    let s := { nib with reqIn := encode .clear ++ [], actIn := List.replicate 7 Completion.ok ++ [] }
    PinsQuiet s ∧ ReceiversReady s ∧ Idle s
      ∧ exec .clear { s with reqIn := [] } = .next (after .clear { s with reqIn := [] })
      ∧ (after .clear { s with reqIn := [] }).rspOut = none
      ∧ (List.replicate 7 Completion.ok).length = (after .clear { s with reqIn := [] }).script.length :=
  ⟨⟨rfl, rfl⟩, ⟨rfl, rfl⟩, ⟨rfl, rfl, rfl, rfl, rfl, rfl, rfl⟩, rfl, rfl, rfl⟩

theorem witness_ResetStateIsTheReleasedState :
    let s := { State.reset with phase := .reset, script := [], cur := none }
    PinsQuiet s ∧ ReceiversReady s ∧ s.phase = .reset ∧ s.cfg = resetStraps ∧ s.params = State.reset.params ∧ s.reqIn = [] ∧ s.actIn = []
      ∧ s.acts = [] ∧ s.rsps = [] ∧ s.logs = [] ∧ s.draws = 0 :=
  ⟨⟨rfl, rfl⟩, ⟨rfl, rfl⟩, rfl, rfl, rfl, rfl, rfl, rfl, rfl, rfl, rfl⟩

/-- The clauses at both levels of the receiver, now and by a change that lands in the coming step. -/
theorem witness_ResponseHoldsTheBlockUntilAccepted :
    answering.phase = .busy ∧ answering.rspOut = some ⟨0x11, .ok⟩ ∧ rstNow answering = false ∧ rspReadyNow answering = true
      ∧ rspReadyNow { answering with pins := [⟨false, resetStraps, true, false⟩] } = false
      ∧ PinsQuiet { answering with rspReady := false } := ⟨rfl, rfl, rfl, rfl, rfl, rfl, rfl⟩

theorem witness_ActionHoldsTheBlockUntilAccepted :
    Running busy ∧ Running State.reset ∧ busy.issued = false ∧ busy.script[busy.pos]? = some (.wb 0x27 0x89)
      ∧ rstNow busy = false ∧ actReadyNow busy = true ∧ actReadyNow { busy with actReady := false } = false
      ∧ PinsQuiet { busy with actReady := false } :=
  ⟨.inr ⟨rfl, rfl⟩, .inl rfl, rfl, rfl, rfl, rfl, rfl, rfl, rfl⟩

theorem witness_ReadyIndicationTellsWhenAByteIsTaken :
    rstNow (offered [0x04]) = false ∧ reqReady (offered [0x04]) = true
      ∧ step (offered [0x04]) = .next (stepped (offered [0x04]))
      ∧ rstNow answering = false ∧ reqReady answering = false ∧ step answering = .next (stepped answering) :=
  ⟨rfl, rfl, rfl, rfl, rfl, rfl⟩

theorem witness_WriteStringExpandsToWriteChars : ∀ c ∈ [0x00, 0x48, 0xFF], c ≤ 255 := by decide

end Sys2Proof.Tests
end

section
/-! PROOFS. What one step can do at the block's ports, said once (spec/00_scope.md R6), and the statements about the
handshakes, the growth of the outputs and the composed command bytes that rest on it. -/

namespace Sys2Proof.Machine

open Sys2Proof.Safety

/-! ## The ports under each operation -/

/-- Nothing crosses a port between `s` and `t`: no action or response accepted, nothing logged, no request byte taken. -/
structure PortsStill (s t : State) : Prop where
  acts  : t.acts = s.acts
  rsps  : t.rsps = s.rsps
  logs  : t.logs = s.logs
  reqIn : t.reqIn = s.reqIn

theorem PortsStill.trans {s t u : State} (hst : PortsStill s t) (htu : PortsStill t u) : PortsStill s u :=
  ⟨htu.acts.trans hst.acts, htu.rsps.trans hst.rsps, htu.logs.trans hst.logs, htu.reqIn.trans hst.reqIn⟩

theorem samplePins_portsStill (s : State) : PortsStill s (samplePins s) := ⟨by simp, by simp, by simp, by simp⟩

theorem finishScript_portsStill (s : State) : PortsStill s (finishScript s) := by
  unfold finishScript
  split <;> exact ⟨rfl, rfl, rfl, rfl⟩

theorem advance_portsStill (s : State) : PortsStill s (advance s) := by
  by_cases h : s.pos + 1 < s.script.length
  · rw [advance_inside h]
    exact ⟨rfl, rfl, rfl, rfl⟩
  · rw [advance_last h]
    exact .trans (t := { s with pos := s.pos + 1, issued := false }) ⟨rfl, rfl, rfl, rfl⟩ (finishScript_portsStill _)

theorem abortScript_portsStill (s : State) : PortsStill s (abortScript s) := by
  unfold abortScript
  split <;> exact ⟨rfl, rfl, rfl, rfl⟩

theorem assertReset_portsStill (s : State) : PortsStill s (assertReset s) := ⟨rfl, rfl, rfl, rfl⟩

theorem releaseReset_portsStill (s : State) : PortsStill s (releaseReset s) := by
  unfold releaseReset
  split <;> exact ⟨rfl, rfl, rfl, rfl⟩

theorem ShadowsOnly.portsStill {s s' : State} (h : ShadowsOnly s s') : PortsStill s s' :=
  ⟨by rw [h.rest], by rw [h.rest], by rw [h.rest], by rw [h.rest]⟩

theorem accepted_portsStill (i : Instr) (sc : List Action) (s : State) : PortsStill s (accepted i sc s) :=
  ⟨rfl, rfl, rfl, rfl⟩

theorem exec_portsStill {i : Instr} {s t : State} (h : exec i s = .next t) : PortsStill s t := by
  rcases exec_cases i s with ⟨code, he⟩ | ⟨s', sc, he, hs⟩ <;> cases he.symm.trans h
  · exact ⟨rfl, rfl, rfl, rfl⟩
  · exact hs.portsStill.trans (accepted_portsStill i sc s')

theorem receive_portsStill {bs : List Byte} {s t : State} (h : receive bs s = .next t) : PortsStill s t := by
  unfold receive at h
  split at h
  case h_1 i _ _ =>
    have hx : PortsStill { s with rx := [] } t := exec_portsStill h
    exact ⟨hx.acts, hx.rsps, hx.logs, hx.reqIn⟩
  case h_2 => cases h; exact ⟨rfl, rfl, rfl, rfl⟩
  case h_3 => cases h; exact ⟨rfl, rfl, rfl, rfl⟩

/-- READY takes the first byte on offer and nothing else crosses a port (R90). -/
theorem acceptByte_takes_first {s t : State} (h : acceptByte s = .next t) :
    PortsStill { s with reqIn := s.reqIn.tail } t := by
  unfold acceptByte at h
  split at h
  case h_1 hr => cases h; exact ⟨rfl, rfl, rfl, by rw [hr]; rfl⟩
  case h_2 b rest hr => rw [hr]; exact receive_portsStill h

/-- A completion moves nothing over a port but at most one log record (R238). -/
theorem completeAction_ports (a : Action) (failed : Bool) (s : State) :
    PortsStill s (completeAction a failed s) ∨ ∃ r, PortsStill (s.emitLog r) (completeAction a failed s) := by
  rcases completeAction_cases a failed s with h | ⟨-, -, -, h⟩ | ⟨-, -, -, h⟩ <;> rw [h]
  · exact .inl (advance_portsStill s)
  · exact .inr ⟨_, advance_portsStill _⟩
  · exact .inl (abortScript_portsStill s)

/-- Everything a running script's step can do at the ports: have the action on offer accepted, or emit at most one log
record (R121, R238). -/
theorem runScript_ports (s : State) :
    PortsStill s (runScript s) ∨ (∃ r, PortsStill (s.emitLog r) (runScript s))
      ∨ ∃ a, s.script[s.pos]? = some a ∧ s.issued = false ∧ s.actReady = true
          ∧ runScript s = { s with acts := s.acts ++ [a], issued := true } := by
  rcases runScript_cases s with h | h | ⟨rest, -, -, h⟩ | ⟨a, c, rest, -, -, -, -, h⟩ | ⟨-, h⟩
  · exact .inl (by rw [h]; exact ⟨rfl, rfl, rfl, rfl⟩)
  · exact .inr (.inr h)
  · exact .inl (by rw [h]; exact ⟨rfl, rfl, rfl, rfl⟩)
  · rw [h]
    rcases completeAction_ports a (c == .err) { s with actIn := rest } with hc | ⟨r, hc⟩
    · exact .inl ⟨hc.acts, hc.rsps, hc.logs, hc.reqIn⟩
    · exact .inr (.inl ⟨r, hc.acts, hc.rsps, hc.logs, hc.reqIn⟩)
  · exact .inl (by rw [h]; exact finishScript_portsStill s)

/-! ## The step, by phase and by what its receivers do -/

/-- READY with `rst` low: the step is that of `req` (R90). -/
theorem step_accepts {s : State} (hr : rstNow s = false) (h : s.phase = .ready) :
    step s = acceptByte (samplePins s) := by
  simp [step, phaseStep, rst_samplePins, hr, h]

theorem actReady_samplePins (s : State) : (samplePins s).actReady = actReadyNow s := by
  rw [samplePins_eq]
  rfl

theorem rspReady_samplePins (s : State) : (samplePins s).rspReady = rspReadyNow s := by
  rw [samplePins_eq]
  rfl

theorem sampled_quiet {s : State} (h : PinsQuiet s) : sampled s = s := by
  rw [← samplePins_eq, samplePins_quiet h]

theorem rstNow_quiet {s : State} (h : PinsQuiet s) : rstNow s = false := by
  rw [← rst_samplePins, samplePins_quiet h]
  exact h.1

theorem actReadyNow_quiet {s : State} (h : PinsQuiet s) : actReadyNow s = s.actReady := by
  rw [← actReady_samplePins, samplePins_quiet h]

theorem rspReadyNow_quiet {s : State} (h : PinsQuiet s) : rspReadyNow s = s.rspReady := by
  rw [← rspReady_samplePins, samplePins_quiet h]

/-- A running script offers the action at its position until that action is issued (R73, R120). -/
theorem actOffer_running {s : State} (h : Running s) (hi : s.issued = false) : actOffer s = s.script[s.pos]? := by
  rcases h with hp | ⟨hp, ho⟩
  · simp [actOffer, hp, hi]
  · simp [actOffer, hp, ho, hi]

/-- No action is offered beside a response (R231). -/
theorem actOffer_offering {s : State} {r : Response} (hp : s.phase = .busy) (ho : s.rspOut = some r) :
    actOffer s = none := by
  simp [actOffer, hp, ho]

theorem reqReady_iff (s : State) : reqReady s = true ↔ s.phase = .ready := by
  unfold reqReady
  split <;> simp_all

section ResponseOnOffer

variable {s : State} {r : Response} (hp : s.phase = .busy) (ho : s.rspOut = some r) (hr : rstNow s = false)

include hp ho hr

theorem step_response_accepted (hacc : rspReadyNow s = true) : step s = .next (answered r.op r.code (sampled s)) := by
  rw [step_offers hr hp ho, offerResponse_ready r ((rspReady_samplePins s).trans hacc), samplePins_eq]

theorem step_response_held (hacc : rspReadyNow s = false) : step s = .next (sampled s) := by
  rw [step_offers hr hp ho, offerResponse_held r ((rspReady_samplePins s).trans hacc), samplePins_eq]

end ResponseOnOffer

section ActionOnOffer

variable {s : State} {a : Action} (hrun : Running s) (hi : s.issued = false) (ha : s.script[s.pos]? = some a)
  (hr : rstNow s = false)

include hrun hi ha hr

theorem step_action_on_offer : step s = .next (issueAction a (sampled s)) := by
  rw [step_runs hr hrun, samplePins_eq, runScript_issue (s := sampled s) ha hi]

theorem step_action_accepted (hacc : actReadyNow s = true) :
    step s = .next { sampled s with acts := s.acts ++ [a], issued := true } := by
  rw [step_action_on_offer hrun hi ha hr, issueAction_ready (s := sampled s) a hacc]
  rfl

theorem step_action_held (hacc : actReadyNow s = false) : step s = .next (sampled s) := by
  rw [step_action_on_offer hrun hi ha hr, issueAction_held (s := sampled s) a hacc]

end ActionOnOffer

/-! ## What one step can do at the ports -/

/-- Everything a step from `s` to `t` can do at the ports of R6: at most one record or byte crosses one of them. -/
inductive PortEvent (s t : State) : Prop
  /-- Nothing crosses a port; READY with `rst` low is the case of `req` below. -/
  | still (ports : PortsStill s t) (elsewhere : rstNow s = false → s.phase ≠ .ready)
  /-- READY takes the first request byte on offer, if there is one (R90). -/
  | byte (ready : s.phase = .ready) (ports : PortsStill { s with reqIn := s.reqIn.tail } t)
  /-- The receiver of `act` accepts the action on offer (R73). -/
  | action (a : Action) (running : Running s) (here : s.script[s.pos]? = some a) (fresh : s.issued = false)
      (accepts : actReadyNow s = true) (result : t = { sampled s with acts := s.acts ++ [a], issued := true })
  /-- The receiver of `rsp` accepts the response on offer (R231). -/
  | response (r : Response) (busy : s.phase = .busy) (offered : s.rspOut = some r) (accepts : rspReadyNow s = true)
      (result : t = answered r.op r.code (sampled s))
  /-- A failed write of a running script is logged (R238). -/
  | logged (r : LogRecord) (running : Running s) (ports : PortsStill (s.emitLog r) t)

theorem not_ready_of_running {s : State} (h : Running s) : s.phase ≠ .ready := by
  rcases h with h | ⟨h, -⟩ <;> simp [h]

/-- A running script's step, as an event at the ports. -/
theorem portEvent_of_running {s t : State} (hr : rstNow s = false) (hrun : Running s) (h : step s = .next t) :
    PortEvent s t := by
  rw [step_runs hr hrun, samplePins_eq] at h
  cases h
  rcases runScript_ports (sampled s) with hs | ⟨r, hl⟩ | ⟨a, here, fresh, accepts, hx⟩
  · exact .still ⟨hs.acts, hs.rsps, hs.logs, hs.reqIn⟩ fun _ => not_ready_of_running hrun
  · exact .logged r hrun ⟨hl.acts, hl.rsps, hl.logs, hl.reqIn⟩
  · exact .action a hrun here fresh accepts hx

/-- BUSY with a response on offer: it is accepted, or nothing crosses a port. -/
theorem portEvent_of_offering {s t : State} {r : Response} (hr : rstNow s = false) (hp : s.phase = .busy)
    (ho : s.rspOut = some r) (h : step s = .next t) : PortEvent s t := by
  cases hacc : rspReadyNow s
  · cases (step_response_held hp ho hr hacc).symm.trans h
    exact .still ⟨rfl, rfl, rfl, rfl⟩ fun _ => by simp [hp]
  · cases (step_response_accepted hp ho hr hacc).symm.trans h
    exact .response r hp ho hacc rfl

/-- READY with `rst` low: a byte on offer is taken. -/
theorem portEvent_of_ready {s t : State} (hr : rstNow s = false) (hp : s.phase = .ready) (h : step s = .next t) :
    PortEvent s t := by
  rw [step_accepts hr hp, samplePins_eq] at h
  have ht := acceptByte_takes_first h
  exact .byte hp ⟨ht.acts, ht.rsps, ht.logs, ht.reqIn⟩

/-- Every step is one of the events at the ports. -/
theorem step_portEvent {s t : State} (h : step s = .next t) : PortEvent s t := by
  cases hr : rstNow s with
  | true =>
    cases (step_reset hr).symm.trans h
    exact .still ((samplePins_portsStill s).trans (assertReset_portsStill _)) (by simp [hr])
  | false =>
    cases hp : s.phase with
    | ready => exact portEvent_of_ready hr hp h
    | init => exact portEvent_of_running hr (.inl hp) h
    | busy =>
      cases ho : s.rspOut with
      | none => exact portEvent_of_running hr (.inr ⟨hp, ho⟩) h
      | some r => exact portEvent_of_offering hr hp ho h
    | reset =>
      simp only [step, phaseStep, rst_samplePins, hr, samplePins_phase, hp] at h
      cases h
      exact .still ((samplePins_portsStill s).trans (releaseReset_portsStill _)) fun _ => by simp [hp]
    | configError | initFailed =>
      simp only [step, phaseStep, rst_samplePins, hr, samplePins_phase, hp] at h
      cases h
      exact .still (samplePins_portsStill s) fun _ => by simp [hp]

/-! ## Bits of a composed byte (R9) -/

/-- A mask clear of the base reads back the field's own bits. -/
theorem or_and_of_base_clear {b m : Byte} (v : Byte) (h : b &&& m = 0) : (b ||| v) &&& m = v &&& m := by
  rw [BitVec.and_or_distrib_right, h]
  exact BitVec.zero_or

/-- A value whose bits all lie within a mask is its own reading through it. -/
theorem and_eq_self_of_within {v m : Byte} (h : v &&& ~~~m = 0) : v &&& m = v := by
  calc v &&& m = (v &&& m) ||| (v &&& ~~~m) := by rw [h]; exact BitVec.or_zero.symm
    _ = v := by rw [← BitVec.and_or_distrib_left, BitVec.or_not_self, BitVec.and_allOnes]

theorem or_and_eq_zero_iff {a b m : Byte} : (a ||| b) &&& m = 0 ↔ a &&& m = 0 ∧ b &&& m = 0 := by
  rw [BitVec.and_or_distrib_right]
  exact BitVec.or_eq_zero_iff

theorem maskIf_and_self (c : Bool) (m : Byte) : maskIf c m &&& m = maskIf c m := by
  cases c <;> simp [maskIf]

theorem maskIf_and_of_clear (c : Bool) {m n : Byte} (h : m &&& n = 0) : maskIf c m &&& n = 0 := by
  cases c <;> simp [maskIf, h]

/-- A mask with a bit set tells whether it was sent. -/
theorem maskIf_injective {m : Byte} (hm : m ≠ 0) {c d : Bool} (h : maskIf c m = maskIf d m) : c = d := by
  cases c <;> cases d <;> simp_all [maskIf]

theorem ne_zero_of_oneBit {m : Byte} (h : oneBit m = true) : m ≠ 0 := by
  simp only [oneBit, Bool.and_eq_true, bne_iff_ne] at h
  exact h.1

/-- Two flags apart from each other and from the base are read back from their composition with it. -/
theorem two_flags_read_back {b m n : Byte} (hm : oneBit m = true) (hn : oneBit n = true) (hmn : m ≠ n)
    (hbm : b &&& m = 0) (hbn : b &&& n = 0) {c d c' d' : Bool}
    (h : b ||| maskIf c m ||| maskIf d n = b ||| maskIf c' m ||| maskIf d' n) : c = c' ∧ d = d' := by
  have hmn0 : m &&& n = 0 := oneBit_disjoint hm hn hmn
  have hnm0 : n &&& m = 0 := oneBit_disjoint hn hm hmn.symm
  have reads_m : ∀ c d, (b ||| maskIf c m ||| maskIf d n) &&& m = maskIf c m := fun c d => by
    rw [BitVec.or_comm, or_and_of_base_clear _ (maskIf_and_of_clear d hnm0), or_and_of_base_clear _ hbm, maskIf_and_self]
  have reads_n : ∀ c d, (b ||| maskIf c m ||| maskIf d n) &&& n = maskIf d n := fun c d => by
    rw [or_and_of_base_clear _ (or_and_eq_zero_iff.2 ⟨hbn, maskIf_and_of_clear c hmn0⟩), maskIf_and_self]
  exact ⟨maskIf_injective (ne_zero_of_oneBit hm) (by rw [← reads_m c d, h, reads_m]),
    maskIf_injective (ne_zero_of_oneBit hn) (by rw [← reads_n c d, h, reads_n])⟩

theorem slot_within_cgram_field : ∀ slot : Byte, (slotIndex slot <<< 3) &&& (0x3F : Byte) = slotIndex slot <<< 3 := by
  decide

/-- R9 item 3: each command base is clear of its flags. -/
theorem bases_clear_of_flags {F : FamilyParams} (h : F.wf = true) :
    (F.cmdEM &&& F.emLTR = 0 ∧ F.cmdEM &&& F.emShift = 0)
      ∧ (F.cmdDC &&& F.dcDisplay = 0 ∧ F.cmdDC &&& F.dcCursor = 0 ∧ F.cmdDC &&& F.dcBlink = 0)
      ∧ (F.cmdShift &&& F.shDisplay = 0 ∧ F.cmdShift &&& F.shRight = 0) := by
  simp only [FamilyParams.wf, FamilyParams.item3, Bool.and_eq_true, beq_iff_eq, or_and_eq_zero_iff] at h
  obtain ⟨⟨⟨⟨⟨⟨hl, hs⟩, ⟨hd, hc⟩, hb⟩, hsd, hsr⟩, -⟩, -⟩, -⟩ := h
  simp only [BitVec.and_comm F.cmdEM, BitVec.and_comm F.cmdDC, BitVec.and_comm F.cmdShift]
  exact ⟨⟨hl, hs⟩, ⟨hd, hc, hb⟩, hsd, hsr⟩

/-- R8 and R9 item 4: the two bits of a shift command are single and different. -/
theorem WfParams_shift_bits (p : WfParams) (f : Family) :
    oneBit (p.val.fam f).shDisplay = true ∧ oneBit (p.val.fam f).shRight = true
      ∧ (p.val.fam f).shDisplay ≠ (p.val.fam f).shRight := by
  obtain ⟨hw, ht⟩ := WfParams_family p f
  simp only [FamilyParams.typed, Bool.and_eq_true] at ht
  simp only [FamilyParams.wf, FamilyParams.item4, Bool.and_eq_true, bne_iff_ne] at hw
  obtain ⟨⟨-, hd⟩, hr⟩ := ht
  obtain ⟨⟨⟨-, -, hdr⟩, -⟩, -⟩ := hw
  exact ⟨hd, hr, hdr⟩

/-- R9 items 5 and 6: the address bases are clear of the address bits. -/
theorem address_bases_clear {F : FamilyParams} (h : F.wf = true) :
    F.cmdDDRAM &&& F.ddramMax = 0 ∧ F.cmdCGRAM &&& 0x3F = 0 := by
  simp only [FamilyParams.wf, FamilyParams.item5, FamilyParams.item6, Bool.and_eq_true, beq_iff_eq] at h
  obtain ⟨⟨-, h5⟩, h6⟩ := h
  exact ⟨h5, h6⟩

/-- R9 item 10: the low bits of a fade mode code are clear. -/
theorem WfParams_fadeModes (p : WfParams) :
    ∀ mode ∈ [p.val.fadeModeOff, p.val.fadeModeOnce, p.val.fadeModeBlink], mode &&& 0x0F = 0 := by
  obtain ⟨-, -, -, -, -, -, -, -, h⟩ := WfParams_checks p
  simp only [Params.item10, Bool.and_eq_true, beq_iff_eq] at h
  obtain ⟨⟨hoff, honce⟩, hblink⟩ := h
  intro mode hm
  simp only [List.mem_cons, List.not_mem_nil, or_false] at hm
  rcases hm with rfl | rfl | rfl <;> assumption

/-- A fade value holds the rate's low bits and the mode code (R205 to R207). -/
theorem fadeValue_read_back {mode : Byte} (rate : Byte) (h : mode &&& 0x0F = 0) :
    fadeValue mode rate &&& 0x0F = rate &&& 0x0F ∧ fadeValue mode rate &&& 0xF0 = mode := by
  constructor
  · rw [fadeValue, or_and_of_base_clear _ h, BitVec.and_assoc, BitVec.and_self]
  · have low : rate &&& 0x0F &&& 0xF0 = 0 := by
      rw [BitVec.and_assoc]
      exact BitVec.and_zero
    rw [fadeValue, BitVec.or_comm, or_and_of_base_clear _ low, and_eq_self_of_within h]

end Sys2Proof.Machine

namespace Sys2Proof.Safety

open Sys2Proof.Machine

/-! ## The statements -/

/-- Settles O12: each event at the ports moves at most the one record on offer. -/
theorem outputsGrowOneAtATime : Obligations.OutputsGrowOneAtATime := by
  intro s t h
  cases step_portEvent h with
  | still ports _ => exact ⟨.inl ports.acts, .inl ports.rsps, .inl ports.logs⟩
  | byte _ ports => exact ⟨.inl ports.acts, .inl ports.rsps, .inl ports.logs⟩
  | action a running here fresh accepts result =>
    subst result
    exact ⟨.inr ⟨a, rfl, (actOffer_running running fresh).trans here, accepts, here, fresh, rfl, rfl⟩, .inl rfl, .inl rfl⟩
  | response r _ offered accepts result =>
    subst result
    exact ⟨.inl rfl, .inr ⟨r, rfl, offered, accepts, rfl, rfl⟩, .inl rfl⟩
  | logged r _ ports => exact ⟨.inl ports.acts, .inl ports.rsps, .inr ⟨r, ports.logs⟩⟩

/-- Settles O26: each base is clear of its field's mask by R9, so the mask reads the field back. -/
theorem commandFieldsAreLossless : Obligations.CommandFieldsAreLossless := by
  intro p f F
  have hwf : F.wf = true := (WfParams_family p f).1
  obtain ⟨⟨hLTR, hShift⟩, ⟨hDisplay, hCursor, hBlink⟩, hShDisplay, hShRight⟩ :=
    bases_clear_of_flags hwf
  obtain ⟨hDDRAM, hCGRAM⟩ := address_bases_clear hwf
  obtain ⟨bitD, bitR, hne⟩ := WfParams_shift_bits p f
  refine ⟨fun v => ⟨or_and_of_base_clear v hLTR, or_and_of_base_clear v hShift⟩, fun v m hm => ?_,
    fun _ _ _ _ => two_flags_read_back bitD bitR hne hShDisplay hShRight, fun n hn => ?_, fun slot => ?_,
    fun rate mode hm => fadeValue_read_back rate (WfParams_fadeModes p mode hm)⟩
  · have clear : F.cmdDC &&& m = 0 := by
      simp only [List.mem_cons, List.not_mem_nil, or_false] at hm
      rcases hm with rfl | rfl | rfl <;> assumption
    exact or_and_of_base_clear v clear
  · rw [or_and_of_base_clear n hDDRAM, and_eq_self_of_within hn]
  · rw [or_and_of_base_clear _ hCGRAM, slot_within_cgram_field]

/-- Settles O55: the step of BUSY with a response on offer is its receiver's alone. -/
theorem responseHoldsTheBlockUntilAccepted : Obligations.ResponseHoldsTheBlockUntilAccepted := by
  intro s r hp ho
  refine ⟨by simp [status, hp], by simp [reqReady, hp], actOffer_offering hp ho, step_response_accepted hp ho,
    step_response_held hp ho, fun k hq hheld => run_still ?_ k⟩
  rw [step_response_held hp ho (rstNow_quiet hq) ((rspReadyNow_quiet hq).trans hheld), sampled_quiet hq]

/-- Settles O56: the step of a running script with nothing outstanding is the receiver's of `act` alone. -/
theorem actionHoldsTheBlockUntilAccepted : Obligations.ActionHoldsTheBlockUntilAccepted := by
  intro s a hrun hi ha
  refine ⟨(actOffer_running hrun hi).trans ha, step_action_accepted hrun hi ha, step_action_held hrun hi ha,
    fun k hq hheld => run_still ?_ k⟩
  rw [step_action_held hrun hi ha (rstNow_quiet hq) ((actReadyNow_quiet hq).trans hheld), sampled_quiet hq]

/-- Settles O57: of the events at the ports only that of READY takes a byte, and with `rst` low READY has no other. -/
theorem readyIndicationTellsWhenAByteIsTaken : Obligations.ReadyIndicationTellsWhenAByteIsTaken := by
  intro s t
  refine ⟨reqReady_iff s, fun hr h => ?_⟩
  rw [← Bool.not_eq_true, reqReady_iff]
  cases step_portEvent h with
  | still ports elsewhere => exact ⟨fun hp => absurd hp (elsewhere hr), fun _ => ports.reqIn⟩
  | byte ready ports => exact ⟨fun _ => ports.reqIn, fun hn => absurd ready hn⟩
  | action a running _ _ _ result => exact ⟨fun hp => absurd hp (not_ready_of_running running), fun _ => by rw [result]; rfl⟩
  | response r busy _ _ result => exact ⟨fun hp => by simp [hp] at busy, fun _ => by rw [result]; rfl⟩
  | logged r running ports => exact ⟨fun hp => absurd hp (not_ready_of_running running), fun _ => ports.reqIn⟩

end Sys2Proof.Safety
end

section
/-! PROOFS. What a request may write and the script it leaves, said once for all requests (spec/42_register_ops.md R170,
spec/40_encoders.md R120 to R129, spec/60_exceptions.md R231), and what one step can do with the configuration and the
position of a script (spec/10_state.md R30 to R41). -/

namespace Sys2Proof.Machine

open Sys2Proof.Safety

/-! ## Bits under a flag write (R170) -/

/-- A flag write leaves the bits apart from its mask as they are. -/
theorem setFlag_and_of_apart {m n : Byte} (v : Byte) (on : Bool) (h : m &&& n = 0) :
    setFlag v m on &&& n = v &&& n := by
  cases on
  · have hn : ~~~m &&& n = n := by
      rw [BitVec.and_comm]
      exact and_eq_self_of_within (by rw [BitVec.not_not, BitVec.and_comm, h])
    rw [setFlag, if_neg Bool.false_ne_true, BitVec.and_assoc, hn]
  · rw [setFlag, if_pos rfl, BitVec.or_comm, or_and_of_base_clear v h]

/-- A flag write leaves its own flag as it says. -/
theorem setFlag_and_self (v m : Byte) (on : Bool) : setFlag v m on &&& m = maskIf on m := by
  cases on
  · rw [setFlag, if_neg Bool.false_ne_true, BitVec.and_assoc, BitVec.and_comm (~~~m), BitVec.and_not_self]
    exact BitVec.and_zero
  · rw [setFlag, if_pos rfl, maskIf, if_pos rfl]
    exact BitVec.eq_of_getElem_eq (by simp +contextual)

/-- Bits within a mask are within any wider one. -/
theorem within_or_left {a m : Byte} (n : Byte) (h : a &&& ~~~m = 0) : a &&& ~~~(m ||| n) = 0 := by
  rw [BitVec.not_or, ← BitVec.and_assoc, h]
  exact BitVec.zero_and

theorem within_or_right {a n : Byte} (m : Byte) (h : a &&& ~~~n = 0) : a &&& ~~~(m ||| n) = 0 := by
  rw [BitVec.or_comm]
  exact within_or_left m h

/-! ## The register operations -/

theorem exec_dcOp {op : Instr × (FamilyParams → Byte) × Bool} (h : op ∈ dcOps) (s : State) :
    exec op.1 s = regSetDC op.1 (op.2.1 s.F) op.2.2 s := by
  simp only [dcOps, List.mem_cons, List.not_mem_nil, or_false] at h
  rcases h with rfl | rfl | rfl | rfl | rfl | rfl <;> rfl

theorem exec_emOp {op : Instr × (FamilyParams → Byte) × Bool} (h : op ∈ emOps) (s : State) :
    exec op.1 s = regSetEM op.1 (op.2.1 s.F) op.2.2 s := by
  simp only [emOps, List.mem_cons, List.not_mem_nil, or_false] at h
  rcases h with rfl | rfl | rfl | rfl <;> rfl

theorem dcOp_flag_mem {op : Instr × (FamilyParams → Byte) × Bool} (h : op ∈ dcOps) (F : FamilyParams) :
    op.2.1 F ∈ [F.dcDisplay, F.dcCursor, F.dcBlink] := by
  simp only [dcOps, List.mem_cons, List.not_mem_nil, or_false] at h
  rcases h with rfl | rfl | rfl | rfl | rfl | rfl <;> simp

theorem emOp_flag_mem {op : Instr × (FamilyParams → Byte) × Bool} (h : op ∈ emOps) (F : FamilyParams) :
    op.2.1 F ∈ [F.emLTR, F.emShift] := by
  simp only [emOps, List.mem_cons, List.not_mem_nil, or_false] at h
  rcases h with rfl | rfl | rfl | rfl <;> simp

/-- R8: every flag of the two registers is a single bit. -/
theorem WfParams_flag_bits (p : WfParams) (f : Family) :
    (∀ m ∈ [(p.val.fam f).dcDisplay, (p.val.fam f).dcCursor, (p.val.fam f).dcBlink], oneBit m = true)
      ∧ ∀ m ∈ [(p.val.fam f).emLTR, (p.val.fam f).emShift], oneBit m = true := by
  have ht := (WfParams_family p f).2
  simp only [FamilyParams.typed, Bool.and_eq_true] at ht
  obtain ⟨⟨⟨⟨⟨⟨ltr, shift⟩, display⟩, cursor⟩, blink⟩, -⟩, -⟩ := ht
  simp only [List.forall_mem_cons]
  exact ⟨⟨display, cursor, blink, by simp⟩, ltr, shift, by simp⟩

/-- A flag write among single bits: its own flag as it says, each other flag and each other bit as before. -/
theorem setFlag_changes_one_flag {m : Byte} {flags : List Byte} (hf : ∀ n ∈ flags, oneBit n = true) (hm : m ∈ flags)
    (v : Byte) (on : Bool) :
    setFlag v m on &&& m = maskIf on m ∧ (∀ n ∈ flags, n ≠ m → setFlag v m on &&& n = v &&& n)
      ∧ setFlag v m on &&& ~~~m = v &&& ~~~m :=
  ⟨setFlag_and_self v m on,
    fun n hn hne => setFlag_and_of_apart v on (oneBit_disjoint (hf m hm) (hf n hn) hne.symm),
    setFlag_and_of_apart v on (BitVec.and_not_self m)⟩

/-! ## Scripts of legal actions -/

/-- Every action of a script is one the block may emit in this state. -/
def LegalScript (s : State) (sc : List Action) : Prop := ∀ a ∈ sc, LegalAction s a

@[simp] theorem legalScript_nil (s : State) : LegalScript s [] := fun _ h => absurd h List.not_mem_nil

@[simp] theorem legalScript_append {s : State} {l m : List Action} :
    LegalScript s (l ++ m) ↔ LegalScript s l ∧ LegalScript s m := List.forall_mem_append

theorem legalScript_flatMap {α : Type} {s : State} {f : α → List Action} {l : List α}
    (h : ∀ x ∈ l, LegalScript s (f x)) : LegalScript s (l.flatMap f) := fun a ha =>
  have ⟨x, hx, hax⟩ := List.mem_flatMap.1 ha
  h x hx a hax

theorem legalScript_wait {s : State} {t : Nat} (h : 1 ≤ t) : LegalScript s [.wait t] := by
  intro a ha
  cases List.mem_singleton.1 ha
  exact h

theorem legalScript_waitFor (s : State) (t : Nat) : LegalScript s (waitFor t) := by
  by_cases h : t = 0
  · simp [h, waitFor_zero]
  · rw [waitFor_pos h]
    exact legalScript_wait (Nat.one_le_iff_ne_zero.2 h)

/-- R122: of the backlight mask an expander byte carries `S.BL`. -/
theorem xb_backlight_bit (e : Enc) (n : Nibble) (rs en : Bool) : xb e n rs en &&& e.P.blMask = maskIf e.BL e.P.blMask := by
  obtain ⟨-, rsBl, enBl, -, -, blField, hk⟩ := WfParams_masks e.params
  change e.P.rsMask &&& e.P.blMask = 0 at rsBl
  change e.P.enMask &&& e.P.blMask = 0 at enBl
  change e.P.blMask &&& ((0x0F : Byte) <<< e.P.nibShift) = 0 at blField
  have field : (n.setWidth 8 <<< e.P.nibShift : Byte) &&& e.P.blMask = 0 := by
    rw [← nibble_in_field (k := e.P.nibShift) hk n, BitVec.and_assoc, BitVec.and_comm (_ <<< _) e.P.blMask, blField]
    exact BitVec.and_zero
  have rest := or_and_eq_zero_iff.2 ⟨or_and_eq_zero_iff.2 ⟨field, maskIf_and_of_clear rs rsBl⟩, maskIf_and_of_clear en enBl⟩
  rw [xb, or_and_of_base_clear _ rest, maskIf_and_self]

/-- R64: an expander byte has no bit outside the nibble field and the three masks. -/
theorem xb_within_expanderBits (e : Enc) (n : Nibble) (rs en : Bool) : xb e n rs en &&& ~~~(expanderBits e.P) = 0 := by
  have hk : e.P.nibShift ≤ 4 := (WfParams_masks e.params).2.2.2.2.2.2
  have field : (n.setWidth 8 <<< e.P.nibShift : Byte) &&& ~~~((0x0F : Byte) <<< e.P.nibShift) = 0 := by
    rw [← nibble_in_field hk n, BitVec.and_assoc, BitVec.and_not_self]
    exact BitVec.and_zero
  simp only [xb, expanderBits, or_and_eq_zero_iff]
  exact ⟨⟨⟨within_or_left _ (within_or_left _ (within_or_left _ field)),
    maskIf_and_of_clear rs (within_or_left _ (within_or_left _ (within_or_right _ (BitVec.and_not_self _))))⟩,
    maskIf_and_of_clear en (within_or_left _ (within_or_right _ (BitVec.and_not_self _)))⟩,
    maskIf_and_of_clear e.BL (within_or_right _ (BitVec.and_not_self _))⟩

theorem legalScript_nibWrite {s : State} (h : s.family = .nibble) (n : Nibble) (rs : Bool) :
    LegalScript s (nibWrite s.enc n rs) := by
  intro a ha
  rcases mem_nibWrite ha with ⟨en, rfl⟩ | ⟨rfl, ht⟩
  · exact ⟨h, rfl, xb_backlight_bit s.enc n rs en, xb_within_expanderBits s.enc n rs en⟩
  · exact ht

theorem legalScript_nibByte {s : State} (h : s.family = .nibble) (b : Byte) (rs : Bool) :
    LegalScript s (nibByte s.enc b rs) :=
  legalScript_append.2 ⟨legalScript_nibWrite h _ rs, legalScript_nibWrite h _ rs⟩

theorem legalScript_byteWrite {s : State} (h : s.family = .byteMode) (b : Byte) (rs : Bool) :
    LegalScript s (byteWrite s.enc b rs) := by
  intro a ha
  rcases mem_byteWrite ha with rfl | ⟨rfl, ht⟩
  · exact ⟨h, rfl, by cases rs <;> simp⟩
  · exact Nat.one_le_of_lt ht

theorem legalScript_cmd (s : State) (b : Byte) : LegalScript s (cmd s.enc b) := by
  cases h : s.family
  · rw [cmd, State.enc_family, h]
    exact legalScript_nibByte h b false
  · rw [cmd, State.enc_family, h]
    exact legalScript_byteWrite h b false

theorem legalScript_dat (s : State) (b : Byte) : LegalScript s (dat s.enc b) := by
  cases h : s.family
  · rw [dat, State.enc_family, h]
    exact legalScript_nibByte h b true
  · rw [dat, State.enc_family, h]
    exact legalScript_byteWrite h b true

theorem one_le_tClear (p : WfParams) : 1 ≤ p.val.tClear := by
  have := (WfParams_waits p).2.1
  omega

theorem legalScript_clearScript (s : State) : LegalScript s (clearScript s.enc) :=
  legalScript_append.2 ⟨legalScript_cmd s _, legalScript_wait (one_le_tClear s.params)⟩

theorem legalScript_initStep {s : State} {st : InitStep} (h : st.isNib = true → s.family = .nibble) :
    LegalScript s (initStep s.enc st) := by
  cases st with
  | cmd b => exact legalScript_cmd s b
  | dat b => exact legalScript_dat s b
  | nib n => exact legalScript_nibWrite (h rfl) n false
  | wait t => exact legalScript_waitFor s t

theorem legalScript_nibblePreamble {s : State} (h : s.family = .nibble) : LegalScript s (nibblePreamble s.enc) := by
  have pulse : LegalScript s (modeEntryPulse s.enc) :=
    legalScript_append.2 ⟨legalScript_nibWrite h _ false, legalScript_waitFor s _⟩
  have tail : LegalScript s (initSteps s.enc s.enc.P.nibPreTail) :=
    legalScript_flatMap fun _ _ => legalScript_initStep fun _ => h
  simp only [nibblePreamble, legalScript_append, pulse, tail, and_self]

/-- R9 item 8: a byte-mode preamble writes no single nibble, so every action of it is the family's. -/
theorem legalScript_byteModePreamble (s : State) : LegalScript s (byteModePreamble s.enc) :=
  legalScript_flatMap fun st hst => legalScript_initStep fun hn => by simp [WfParams_preamble s.params st hst] at hn

/-- R273 to R276: the init script's actions are legal in both families. -/
theorem legalScript_initScript (s : State) (FS DC EM : Byte) : LegalScript s (initScript s.enc FS DC EM) := by
  have tail : LegalScript s (initTail s.enc FS DC EM) := by
    simp only [initTail, homeScript, legalScript_append, legalScript_cmd, legalScript_clearScript, and_self]
  unfold initScript
  cases h : s.family
  · simp only [legalScript_append, legalScript_waitFor, State.enc_family, h, legalScript_nibblePreamble h, tail, and_self]
  · simp only [legalScript_append, legalScript_waitFor, State.enc_family, h, legalScript_byteModePreamble, tail, and_self]

/-- The init script always holds the common tail (R276). -/
theorem initScript_ne_nil (e : Enc) (FS DC EM : Byte) : initScript e FS DC EM ≠ [] := by
  simp [initScript, initTail, clearScript]

/-! ## The scripts of requests -/

/-- What the script of an accepted request is: not empty, of at most 90 actions (R41), each one legal. -/
structure RequestScript (s : State) (sc : List Action) : Prop where
  nonempty : sc ≠ []
  length   : sc.length ≤ 90
  legal    : LegalScript s sc

theorem requestScript_cmd (s : State) (b : Byte) : RequestScript s (cmd s.enc b) where
  nonempty := cmd_ne_nil s.enc b
  length := (cmd_length_le s.enc b).trans (by decide)
  legal := legalScript_cmd s b

theorem requestScript_dat (s : State) (b : Byte) : RequestScript s (dat s.enc b) where
  nonempty := dat_ne_nil s.enc b
  length := (dat_length_le s.enc b).trans (by decide)
  legal := legalScript_dat s b

theorem requestScript_clear (s : State) : RequestScript s (clearScript s.enc) where
  nonempty := by simp [clearScript]
  length := by
    have := cmd_length_le s.enc s.enc.F.cmdClear
    simp only [clearScript, List.length_append, List.length_singleton]
    omega
  legal := legalScript_clearScript s

/-- A list of bytes over one path has at most ten actions for each byte. -/
theorem length_flatMap_le {f : Byte → List Action} (hf : ∀ b, (f b).length ≤ 10) (l : List Byte) :
    (l.flatMap f).length ≤ 10 * l.length := by
  induction l with
  | nil => simp
  | cons b l ih =>
    have := hf b
    simp only [List.flatMap_cons, List.length_append, List.length_cons]
    omega

theorem glyphRowsSent_length (s : State) (g : Glyph) : (glyphRowsSent s g).length = s.P.glyphRows := by
  have rows : s.P.glyphRows = 7 ∨ s.P.glyphRows = 8 := WfParams_glyphRows s.params
  rw [glyphRowsSent, Glyph.rows, List.length_take]
  simp only [List.length_cons, List.length_nil]
  omega

/-- R200: one command and at most eight rows. -/
theorem requestScript_createChar (s : State) (slot : Byte) (g : Glyph) :
    RequestScript s (cmd s.enc (cgramCommand s slot) ++ (glyphRowsSent s g).flatMap (dat s.enc)) where
  nonempty := by simp [cmd_ne_nil]
  length := by
    have hc := cmd_length_le s.enc (cgramCommand s slot)
    have hd := length_flatMap_le (dat_length_le s.enc) (glyphRowsSent s g)
    have hg := glyphRowsSent_length s g
    have hr : s.P.glyphRows = 7 ∨ s.P.glyphRows = 8 := WfParams_glyphRows s.params
    rw [List.length_append]
    omega
  legal := legalScript_append.2 ⟨legalScript_cmd s _, legalScript_flatMap fun b _ => legalScript_dat s b⟩

/-- R203: the envelope is ten bytes, and a byte-mode command is two actions. -/
theorem requestScript_envelope {s : State} (h : s.family = .byteMode) (sel v : Byte) :
    RequestScript s (envelopeScript s sel v) where
  nonempty := by simp [envelopeScript, envelopeBytes, quadBytes, cmd_ne_nil]
  length := by simp [envelopeScript, envelopeBytes, quadBytes, cmd, h, byteWrite]
  legal := legalScript_flatMap fun b _ => legalScript_cmd s b

/-- R201, R202: the one write of a backlight request carries the new `S.BL` alone. -/
theorem requestScript_backlight {s : State} (h : s.family = .nibble) (on : Bool) :
    RequestScript (s.setBL on) [.wb s.addr (maskIf on s.P.blMask)] where
  nonempty := by simp
  length := by simp
  legal := by
    have within : maskIf on s.P.blMask &&& ~~~(expanderBits s.P) = 0 :=
      maskIf_and_of_clear on (within_or_right _ (BitVec.and_not_self _))
    intro a ha
    cases List.mem_singleton.1 ha
    exact ⟨h, rfl, maskIf_and_self on s.P.blMask, within⟩

/-! ## What an accepted request may write -/

/-- The state writes a request may make: one flag of a shadow register (R170), or `S.BL` in the nibble family (R201, R202). -/
inductive ShadowWrite (s : State) : State → Prop
  | none : ShadowWrite s s
  | em (m : Byte) (on : Bool) (own : m ∈ [s.F.emLTR, s.F.emShift]) : ShadowWrite s (s.flagEM m on)
  | dc (m : Byte) (on : Bool) (own : m ∈ [s.F.dcDisplay, s.F.dcCursor, s.F.dcBlink]) : ShadowWrite s (s.flagDC m on)
  | bl (on : Bool) (family : s.family = .nibble) : ShadowWrite s (s.setBL on)

/-- Everything a request can lead to: its refusal, or its acceptance in a family that supports it. -/
inductive RequestOutcome (i : Instr) (s t : State) : Prop
  | refuses (code : RspCode) (result : t = refused (.request i) i.opcode code s)
  | accepts (s' : State) (sc : List Action) (result : t = accepted i sc s') (supported : i.supported s.family = true)
      (writes : ShadowWrite s s') (script : RequestScript s' sc)

/-- A request that writes no state. -/
theorem RequestOutcome.pure {i : Instr} {s : State} {sc : List Action} (hi : i.supported s.family = true)
    (hsc : RequestScript s sc) : RequestOutcome i s (accepted i sc s) := .accepts s sc rfl hi .none hsc

theorem regSetDC_outcome {i : Instr} {m : Byte} {on : Bool} {s t : State} (hi : i.supported s.family = true)
    (own : m ∈ [s.F.dcDisplay, s.F.dcCursor, s.F.dcBlink]) (h : regSetDC i m on s = .next t) : RequestOutcome i s t := by
  cases (regSetDC_eq i m on s).symm.trans h
  exact .accepts (s.flagDC m on) _ rfl hi (.dc m on own) (requestScript_cmd _ _)

theorem regSetEM_outcome {i : Instr} {m : Byte} {on : Bool} {s t : State} (hi : i.supported s.family = true)
    (own : m ∈ [s.F.emLTR, s.F.emShift]) (h : regSetEM i m on s = .next t) : RequestOutcome i s t := by
  cases (regSetEM_eq i m on s).symm.trans h
  exact .accepts (s.flagEM m on) _ rfl hi (.em m on own) (requestScript_cmd _ _)

theorem backlightOp_outcome {i : Instr} {on : Bool} {s t : State} (hi : i.supported .nibble = true)
    (h : backlightOp i on s = .next t) : RequestOutcome i s t := by
  by_cases hf : s.family = .nibble
  · cases (backlightOp_nibble i on hf).symm.trans h
    exact .accepts (s.setBL on) _ rfl (by rw [hf, hi]) (.bl on hf) (requestScript_backlight hf on)
  · cases (whenFamily_other _ hf).symm.trans h
    exact .refuses .unsupported rfl

theorem extendedOp_outcome {i : Instr} {sel v : Byte} {s t : State} (hi : i.supported .byteMode = true)
    (h : extendedOp i sel v s = .next t) : RequestOutcome i s t := by
  by_cases hf : s.family = .byteMode
  · cases (extendedOp_byteMode i sel v hf).symm.trans h
    exact .pure (by rw [hf, hi]) (requestScript_envelope hf sel v)
  · cases (whenFamily_other _ hf).symm.trans h
    exact .refuses .unsupported rfl

theorem execCursorMove_outcome {row col : Byte} {s t : State} (h : execCursorMove row col s = .next t) :
    RequestOutcome (.cursorMove row col) s t := by
  unfold execCursorMove at h
  split at h
  · cases h
    exact .refuses .badOperand rfl
  · cases h
    exact .pure rfl (requestScript_cmd s _)

/-- Every request's meaning has such an outcome: the operation it shares decides which. -/
theorem exec_outcome {i : Instr} {s t : State} (h : exec i s = .next t) : RequestOutcome i s t := by
  cases i with
  | writeChar ch => cases h; exact .pure rfl (requestScript_dat s ch)
  | clear => cases h; exact .pure rfl (requestScript_clear s)
  | home => cases h; exact .pure rfl (requestScript_cmd s _)
  | cursorMove row col => exact execCursorMove_outcome h
  | createChar slot g => cases h; exact .pure rfl (requestScript_createChar s slot g)
  | displayShiftLeft | displayShiftRight | cursorShiftLeft | cursorShiftRight =>
    cases h
    exact .pure rfl (requestScript_cmd s _)
  | displayOn | displayOff | cursorOn | cursorOff | blinkOn | blinkOff =>
    exact regSetDC_outcome rfl (by simp) h
  | displayLtr | displayRtl | displayShiftOn | displayShiftOff =>
    exact regSetEM_outcome rfl (by simp) h
  | backlightOn | backlightOff => exact backlightOp_outcome rfl h
  | setBrightness | fadeOff | fadeOnce | fadeBlink => exact extendedOp_outcome rfl h

/-- With a step wait a nibble-family data byte is ten actions (R129). -/
theorem nibByte_length {e : Enc} (h : 0 < e.P.tNibStep) (b : Byte) (rs : Bool) : (nibByte e b rs).length = 10 := by
  simp [nibByte, nibWrite_length, Nat.ne_of_gt h]

/-! ## Everything one step can do -/

/-- Everything a step from `s` to `t` can be, by the level of `rst` and the phase. A response on offer is accepted (`answers`)
or held; a held response and the halted phases wait with the inputs sampled. -/
inductive StepCase (s t : State) : Prop
  | reset (high : rstNow s = true) (result : t = assertReset (sampled s))
  | release (low : rstNow s = false) (phase : s.phase = .reset) (result : t = releaseReset (sampled s))
  | receives (low : rstNow s = false) (ready : s.phase = .ready) (result : acceptByte (sampled s) = .next t)
  | runs (low : rstNow s = false) (running : Running s) (result : t = runScript (sampled s))
  | answers (r : Response) (busy : s.phase = .busy) (offered : s.rspOut = some r)
      (result : t = answered r.op r.code (sampled s))
  | waits (result : t = sampled s)

/-- The release of `rst` (R271). -/
theorem step_release {s : State} (hr : rstNow s = false) (hp : s.phase = .reset) :
    step s = .next (releaseReset (sampled s)) := by
  rw [← samplePins_eq]
  simp [step, phaseStep, rst_samplePins, hr, hp]

/-- CONFIG_ERROR and INIT_FAILED wait for `rst` (R245). -/
theorem step_halted {s : State} (hr : rstNow s = false) (hp : s.phase = .configError ∨ s.phase = .initFailed) :
    step s = .next (sampled s) := by
  rw [← samplePins_eq]
  rcases hp with hp | hp <;> simp [step, phaseStep, rst_samplePins, hr, hp]

/-- Every step is one of these cases. -/
theorem step_cases {s t : State} (h : step s = .next t) : StepCase s t := by
  cases hr : rstNow s with
  | true =>
    cases (step_reset hr).symm.trans h
    exact .reset hr (by rw [samplePins_eq])
  | false =>
    cases hp : s.phase with
    | ready => exact .receives hr hp (by rw [← samplePins_eq, ← step_accepts hr hp, h])
    | init =>
      cases (step_runs hr (.inl hp)).symm.trans h
      exact .runs hr (.inl hp) (by rw [samplePins_eq])
    | busy =>
      cases ho : s.rspOut with
      | none =>
        cases (step_runs hr (.inr ⟨hp, ho⟩)).symm.trans h
        exact .runs hr (.inr ⟨hp, ho⟩) (by rw [samplePins_eq])
      | some r =>
        cases hacc : rspReadyNow s
        · cases (step_response_held hp ho hr hacc).symm.trans h
          exact .waits rfl
        · cases (step_response_accepted hp ho hr hacc).symm.trans h
          exact .answers r hp ho rfl
    | reset =>
      cases (step_release hr hp).symm.trans h
      exact .release hr hp rfl
    | configError =>
      cases (step_halted hr (.inl hp)).symm.trans h
      exact .waits rfl
    | initFailed =>
      cases (step_halted hr (.inr hp)).symm.trans h
      exact .waits rfl

/-- The end of a script: a request's response is offered, else the block is idle (R231, R277). -/
theorem finishScript_cases (s : State) :
    (∃ i, s.cur = some (.request i) ∧ finishScript s = s.respond i.opcode .ok)
      ∨ ((∀ i, s.cur ≠ some (.request i)) ∧ finishScript s = s.idle) := by
  unfold finishScript
  split
  case h_1 i hc => exact .inl ⟨i, hc, rfl⟩
  case h_2 hc => exact .inr ⟨hc, rfl⟩

/-- A PROPAGATE abort: a request's response is offered, else the init script has failed (R239, R240). -/
theorem abortScript_cases (s : State) :
    (∃ i, s.cur = some (.request i) ∧ abortScript s = { (s.respond i.opcode .busError) with issued := false })
      ∨ ((∀ i, s.cur ≠ some (.request i)) ∧ abortScript s = { s with phase := .initFailed, issued := false }) := by
  unfold abortScript
  split
  case h_1 i hc => exact .inl ⟨i, hc, rfl⟩
  case h_2 hc => exact .inr ⟨hc, rfl⟩

/-! ## The configuration (R30 to R33, R38) -/

/-- What only `rst` changes is the same in `s` and `t`. -/
structure SameConfig (s t : State) : Prop where
  params : t.params = s.params
  family : t.family = s.family
  addr   : t.addr = s.addr
  rows   : t.rows = s.rows
  policy : t.policy = s.policy
  FS     : t.FS = s.FS

theorem SameConfig.trans {s t u : State} (hst : SameConfig s t) (htu : SameConfig t u) : SameConfig s u :=
  ⟨htu.params.trans hst.params, htu.family.trans hst.family, htu.addr.trans hst.addr, htu.rows.trans hst.rows,
    htu.policy.trans hst.policy, htu.FS.trans hst.FS⟩

theorem finishScript_sameConfig (s : State) : SameConfig s (finishScript s) := by
  rcases finishScript_cases s with ⟨i, -, h⟩ | ⟨-, h⟩ <;> rw [h] <;> exact ⟨rfl, rfl, rfl, rfl, rfl, rfl⟩

theorem abortScript_sameConfig (s : State) : SameConfig s (abortScript s) := by
  rcases abortScript_cases s with ⟨i, -, h⟩ | ⟨-, h⟩ <;> rw [h] <;> exact ⟨rfl, rfl, rfl, rfl, rfl, rfl⟩

theorem advance_sameConfig (s : State) : SameConfig s (advance s) := by
  by_cases h : s.pos + 1 < s.script.length
  · rw [advance_inside h]
    exact ⟨rfl, rfl, rfl, rfl, rfl, rfl⟩
  · rw [advance_last h]
    exact .trans (t := { s with pos := s.pos + 1, issued := false }) ⟨rfl, rfl, rfl, rfl, rfl, rfl⟩
      (finishScript_sameConfig _)

theorem completeAction_sameConfig (a : Action) (failed : Bool) (s : State) : SameConfig s (completeAction a failed s) := by
  rcases completeAction_cases a failed s with h | ⟨-, -, -, h⟩ | ⟨-, -, -, h⟩ <;> rw [h]
  · exact advance_sameConfig s
  · exact .trans (t := s.emitLog _) ⟨rfl, rfl, rfl, rfl, rfl, rfl⟩ (advance_sameConfig _)
  · exact abortScript_sameConfig s

theorem runScript_sameConfig (s : State) : SameConfig s (runScript s) := by
  rcases runScript_cases s with h | ⟨a, -, -, -, h⟩ | ⟨rest, -, -, h⟩ | ⟨a, c, rest, -, -, -, -, h⟩ | ⟨-, h⟩ <;> rw [h]
  · exact ⟨rfl, rfl, rfl, rfl, rfl, rfl⟩
  · exact ⟨rfl, rfl, rfl, rfl, rfl, rfl⟩
  · exact ⟨rfl, rfl, rfl, rfl, rfl, rfl⟩
  · exact .trans (t := { s with actIn := rest }) ⟨rfl, rfl, rfl, rfl, rfl, rfl⟩ (completeAction_sameConfig a _ _)
  · exact finishScript_sameConfig s

theorem ShadowWrite.sameConfig {s s' : State} (h : ShadowWrite s s') : SameConfig s s' := by
  cases h <;> exact ⟨rfl, rfl, rfl, rfl, rfl, rfl⟩

theorem exec_sameConfig {i : Instr} {s t : State} (h : exec i s = .next t) : SameConfig s t := by
  cases exec_outcome h with
  | refuses code result => subst result; exact ⟨rfl, rfl, rfl, rfl, rfl, rfl⟩
  | accepts s' sc result _ writes _ => subst result; exact writes.sameConfig.trans ⟨rfl, rfl, rfl, rfl, rfl, rfl⟩

/-- Everything the arrival of a byte can lead to: a whole request's meaning, the refusal of an illegal byte, or the bytes
kept (R90, R95). -/
inductive Received (bs : List Byte) (s t : State) : Prop
  | request (i : Instr) (result : exec i { s with rx := [] } = .next t)
  | illegal (op : Byte) (result : t = refused (.illegal op) op .illegalOpcode { s with rx := [] })
  | partly (incomplete : decode bs = .incomplete) (result : t = { s with rx := bs })

theorem receive_outcome {bs : List Byte} {s t : State} (h : receive bs s = .next t) : Received bs s t := by
  unfold receive at h
  split at h
  case h_1 i _ _ => exact .request i h
  case h_2 op _ _ => cases h; exact .illegal op rfl
  case h_3 hd => cases h; exact .partly hd rfl

theorem receive_sameConfig {bs : List Byte} {s t : State} (h : receive bs s = .next t) : SameConfig s t := by
  cases receive_outcome h with
  | request i result => exact .trans (t := { s with rx := [] }) ⟨rfl, rfl, rfl, rfl, rfl, rfl⟩ (exec_sameConfig result)
  | illegal op result => subst result; exact ⟨rfl, rfl, rfl, rfl, rfl, rfl⟩
  | partly _ result => subst result; exact ⟨rfl, rfl, rfl, rfl, rfl, rfl⟩

/-- READY waits for a byte, or takes the first one on offer (R90). -/
theorem acceptByte_cases {s t : State} (h : acceptByte s = .next t) :
    t = s ∨ ∃ b rest, s.reqIn = b :: rest ∧ receive (s.rx ++ [b]) { s with reqIn := rest } = .next t := by
  unfold acceptByte at h
  split at h
  case h_1 => cases h; exact .inl rfl
  case h_2 b rest hr => exact .inr ⟨b, rest, hr, h⟩

theorem acceptByte_sameConfig {s t : State} (h : acceptByte s = .next t) : SameConfig s t := by
  rcases acceptByte_cases h with rfl | ⟨b, rest, -, h⟩
  · exact ⟨rfl, rfl, rfl, rfl, rfl, rfl⟩
  · exact .trans (t := { s with reqIn := rest }) ⟨rfl, rfl, rfl, rfl, rfl, rfl⟩ (receive_sameConfig h)

theorem sampled_sameConfig (s : State) : SameConfig s (sampled s) := ⟨rfl, rfl, rfl, rfl, rfl, rfl⟩

/-- With `rst` low a step outside RESET leaves the configuration as it is. -/
theorem step_sameConfig {s t : State} (hr : rstNow s = false) (hp : s.phase ≠ .reset) (h : step s = .next t) :
    SameConfig s t := by
  cases step_cases h with
  | reset high _ => simp [hr] at high
  | release _ phase _ => exact absurd phase hp
  | receives _ _ result => exact (sampled_sameConfig s).trans (acceptByte_sameConfig result)
  | runs _ _ result => rw [result]; exact (sampled_sameConfig s).trans (runScript_sameConfig _)
  | answers r _ _ result => subst result; exact ⟨rfl, rfl, rfl, rfl, rfl, rfl⟩
  | waits result => rw [result]; exact sampled_sameConfig s

/-! ## The position of a script (R41) -/

/-- The position stays, or advances by the completion taken for the outstanding action. -/
def Advances (s t : State) : Prop :=
  t.pos = s.pos ∨ (t.pos = s.pos + 1 ∧ s.issued = true ∧ t.issued = false ∧ ∃ c, s.actIn = c :: t.actIn ∧ c ≠ .stale)

/-- A script's end that does not leave its phase is the offer of a request's response. -/
theorem finishScript_in_phase {s : State} (hp : s.phase ≠ .ready) (h : (finishScript s).phase = s.phase) :
    ∃ i : Instr, finishScript s = s.respond i.opcode .ok := by
  rcases finishScript_cases s with ⟨i, -, hf⟩ | ⟨-, hf⟩
  · exact ⟨i, hf⟩
  · rw [hf] at h
    exact absurd h.symm hp

theorem advance_in_phase {s : State} (hp : s.phase ≠ .ready) (h : (advance s).phase = s.phase) :
    (advance s).pos = s.pos + 1 ∧ (advance s).issued = false ∧ (advance s).actIn = s.actIn := by
  by_cases hlt : s.pos + 1 < s.script.length
  · rw [advance_inside hlt]
    exact ⟨rfl, rfl, rfl⟩
  · rw [advance_last hlt] at h ⊢
    obtain ⟨i, hf⟩ := finishScript_in_phase (s := { s with pos := s.pos + 1, issued := false }) hp h
    rw [hf]
    exact ⟨rfl, rfl, rfl⟩

theorem abortScript_pos (s : State) : (abortScript s).pos = s.pos := by
  rcases abortScript_cases s with ⟨i, -, h⟩ | ⟨-, h⟩
  · rw [h]
    rfl
  · rw [h]

/-- A completion that does not end the phase advances the position, or aborts the script where it stands. -/
theorem completeAction_in_phase {a : Action} {failed : Bool} {s : State} (hp : s.phase ≠ .ready)
    (h : (completeAction a failed s).phase = s.phase) :
    (completeAction a failed s).pos = s.pos
      ∨ ((completeAction a failed s).pos = s.pos + 1 ∧ (completeAction a failed s).issued = false
          ∧ (completeAction a failed s).actIn = s.actIn) := by
  rcases completeAction_cases a failed s with hc | ⟨-, -, -, hc⟩ | ⟨-, -, -, hc⟩ <;> rw [hc] at h ⊢
  · exact .inr (advance_in_phase hp h)
  · exact .inr (advance_in_phase (s := s.emitLog _) hp h)
  · exact .inl (abortScript_pos s)

theorem runScript_in_phase {s : State} (hp : s.phase ≠ .ready) (h : (runScript s).phase = s.phase) :
    Advances s (runScript s) := by
  rcases runScript_cases s with hx | ⟨a, -, -, -, hx⟩ | ⟨rest, -, -, hx⟩ | ⟨a, c, rest, -, hi, hc, hs, hx⟩ | ⟨-, hx⟩
    <;> rw [hx] at h ⊢
  · exact .inl rfl
  · exact .inl rfl
  · exact .inl rfl
  · rcases completeAction_in_phase (s := { s with actIn := rest }) hp h with hpos | ⟨hpos, hiss, hin⟩
    · exact .inl hpos
    · exact .inr ⟨hpos, hi, hiss, c, by rw [hin, hc], hs⟩
  · obtain ⟨i, hf⟩ := finishScript_in_phase hp h
    exact .inl (by rw [hf]; rfl)

end Sys2Proof.Machine

namespace Sys2Proof.Safety

open Sys2Proof.Machine

/-! ## The statements about registers, scripts and the configuration -/

/-- Settles O36: each operation is one flag write, and the flags of a register are different single bits. -/
theorem registerOpsChangeOneFlag : Obligations.RegisterOpsChangeOneFlag := by
  constructor
  · intro op hop s t h
    cases (exec_dcOp hop s).symm.trans h
    exact setFlag_changes_one_flag (WfParams_flag_bits s.params s.family).1 (dcOp_flag_mem hop s.F) s.DC op.2.2
  · intro op hop s t h
    cases (exec_emOp hop s).symm.trans h
    exact setFlag_changes_one_flag (WfParams_flag_bits s.params s.family).2 (emOp_flag_mem hop s.F) s.EM op.2.2

/-- Settles O22. -/
theorem statusShowsThePhase : Obligations.StatusShowsThePhase := by
  intro s
  refine ⟨?_, ?_, ?_, ?_, ?_, ?_⟩ <;> intro h <;> rw [status, h]

/-- Settles O44: a refusal leaves no script, an acceptance one of the bounded scripts; CREATE_CHAR sends nine bytes of ten
actions each. -/
theorem requestScriptsHaveAtMost90Actions : Obligations.RequestScriptsHaveAtMost90Actions := by
  refine ⟨fun i s t h => ?_, fun s t slot g hf hg ht h => ?_⟩
  · cases exec_outcome h with
    | refuses code result => simp [result, refused]
    | accepts s' sc result supported writes script => simpa [result, accepted] using script.length
  · cases h
    have bytes := nibByte_length (e := s.enc) ht
    have hrows := (glyphRowsSent_length s g).trans hg
    simp [cmd, dat, hf, List.length_flatMap, bytes, hrows]

/-- Settles O16: no step but those of `rst` writes the configuration. -/
theorem configurationIsFixedBetweenResets : Obligations.ConfigurationIsFixedBetweenResets := by
  intro s t hr hp h
  have fixed := step_sameConfig hr hp h
  exact ⟨fixed.params, fixed.family, fixed.addr, fixed.rows, fixed.policy, fixed.FS⟩

/-- Settles O13: only a completion moves the position, and every way out of the script leaves the phase. -/
theorem positionAdvancesByCompletion : Obligations.PositionAdvancesByCompletion := by
  intro s t hp ht h
  have hready : s.phase ≠ .ready := by rcases hp with hp | hp <;> simp [hp]
  change Advances s t
  cases step_cases h with
  | reset _ result => subst result; rcases hp with hp | hp <;> simp [hp, assertReset] at ht
  | release _ phase _ => simp [phase] at hp
  | receives _ ready _ => exact absurd ready hready
  | runs _ _ result => subst result; exact runScript_in_phase (s := sampled s) hready ht
  | answers r _ _ result => subst result; exact absurd ht.symm hready
  | waits result => subst result; exact .inl rfl

end Sys2Proof.Safety
end

section
/-! PROOFS. The machine's invariant (spec/10_state.md R32 to R45): each thing a step can do keeps it. -/

namespace Sys2Proof.Safety

open Sys2Proof.Machine

/-! ## The invariant's clauses about the registers -/

/-- The clauses of `Inv` about the configuration and the shadow registers, under `Inv`'s own names. -/
structure Registers (s : State) : Prop where
  rows_legal : Configured s → 1 ≤ s.rows ∧ s.rows ≤ 4
  fs_init : Configured s → s.FS = s.F.initFS
  em_other_bits : Configured s → s.EM &&& ~~~(s.F.emLTR ||| s.F.emShift) = s.F.initEM &&& ~~~(s.F.emLTR ||| s.F.emShift)
  dc_other_bits : Configured s →
    s.DC &&& ~~~(s.F.dcDisplay ||| s.F.dcCursor ||| s.F.dcBlink)
      = s.F.initDC &&& ~~~(s.F.dcDisplay ||| s.F.dcCursor ||| s.F.dcBlink)
  bl_byte_mode : Configured s → s.family = .byteMode → s.BL = s.P.initBL

theorem Inv.registers {s : State} (h : Inv s) : Registers s := { h with }

/-- The registers of a configured state stay right under any change of phase. -/
theorem Registers.rephase {s : State} (h : Registers s) (hc : Configured s) (p : Phase) :
    Registers { s with phase := p } where
  rows_legal _ := h.rows_legal hc
  fs_init _ := h.fs_init hc
  em_other_bits _ := h.em_other_bits hc
  dc_other_bits _ := h.dc_other_bits hc
  bl_byte_mode _ := h.bl_byte_mode hc

theorem Registers.of_unconfigured {s : State} (h : ¬Configured s) : Registers s where
  rows_legal hc := absurd hc h
  fs_init hc := absurd hc h
  em_other_bits hc := absurd hc h
  dc_other_bits hc := absurd hc h
  bl_byte_mode hc := absurd hc h

/-- A request writes its own flag of a shadow, so the bits outside the flags are as before (R36, R37, R39). -/
theorem registers_of_shadowWrite {s s' : State} (h : ShadowWrite s s') (hr : Registers s) : Registers s' := by
  cases h with
  | none => exact hr
  | em m on own =>
    have within : m &&& ~~~(s.F.emLTR ||| s.F.emShift) = 0 := by
      simp only [List.mem_cons, List.not_mem_nil, or_false] at own
      rcases own with rfl | rfl
      · exact within_or_left _ (BitVec.and_not_self _)
      · exact within_or_right _ (BitVec.and_not_self _)
    exact { hr with em_other_bits := fun hc => (setFlag_and_of_apart s.EM on within).trans (hr.em_other_bits hc) }
  | dc m on own =>
    have within : m &&& ~~~(s.F.dcDisplay ||| s.F.dcCursor ||| s.F.dcBlink) = 0 := by
      simp only [List.mem_cons, List.not_mem_nil, or_false] at own
      rcases own with rfl | rfl | rfl
      · exact within_or_left _ (within_or_left _ (BitVec.and_not_self _))
      · exact within_or_left _ (within_or_right _ (BitVec.and_not_self _))
      · exact within_or_right _ (BitVec.and_not_self _)
    exact { hr with dc_other_bits := fun hc => (setFlag_and_of_apart s.DC on within).trans (hr.dc_other_bits hc) }
  | bl on nibble => exact { hr with bl_byte_mode := fun _ hb => by simp [nibble] at hb }

/-! ## The invariant where the sequencer is empty, or a request has just come -/

theorem Running.configured {s : State} (h : Running s) : Configured s := by
  rcases h with h | ⟨h, -⟩
  · exact .inl h
  · exact .inr (.inr (.inl h))

/-- A script runs in none of the phases that have no script (R45). -/
theorem Running.not_parked {s : State} (h : Running s) :
    ¬(s.phase = .reset ∨ s.phase = .ready ∨ s.phase = .configError) := by
  rcases h with h | ⟨h, -⟩ <;> simp [h]

/-- The sequencer holds nothing: no script, nothing current, nothing outstanding, no response on offer (R45). -/
structure SequencerEmpty (s : State) : Prop where
  script : s.script = []
  pos    : s.pos = 0
  cur    : s.cur = none
  issued : s.issued = false
  rspOut : s.rspOut = none

theorem inv_of_sequencerEmpty {s : State} (hr : Registers s)
    (hp : s.phase = .reset ∨ s.phase = .ready ∨ s.phase = .configError) (he : SequencerEmpty s) (hx : s.rx = [])
    (hw : ∀ t, Action.wait t ∈ s.acts → 1 ≤ t) : Inv s :=
  { hr with
    rx_only_ready := fun _ => hx
    rx_incomplete := by rw [hx]; rfl
    no_script := fun _ => ⟨he.script, he.pos, he.cur⟩
    issued_running := fun hi => by simp [he.issued] at hi
    pos_in_script := fun hrun => absurd hp hrun.not_parked
    rsp_busy := fun r ho => by simp [he.rspOut] at ho
    init_script := fun hi => by simp [hi] at hp
    busy_request := fun hb => by simp [hb] at hp
    legal_script := by rw [he.script]; exact legalScript_nil s
    legal_waits := hw }

section Arrival

variable {s : State} (hr : Registers s) (hc : Configured s) (hx : s.rx = [])
  (hw : ∀ t, Action.wait t ∈ s.acts → 1 ≤ t)

include hr hc hx hw

theorem inv_refused (c : Current) (code : RspCode) : Inv (refused c (currentOpcode c) code s) :=
  { hr.rephase hc .busy with
    rx_only_ready := fun _ => hx
    rx_incomplete := by rw [show (refused c _ code s).rx = [] from hx]; rfl
    no_script := by simp [refused]
    issued_running := by simp [refused]
    pos_in_script := by simp [Running, refused]
    rsp_busy := fun r ho => by cases ho; exact ⟨rfl, rfl⟩
    init_script := by simp [refused]
    busy_request := by simp [refused]
    legal_script := legalScript_nil _
    legal_waits := hw }

theorem inv_accepted {i : Instr} {sc : List Action} (hi : i.supported s.family = true) (hsc : RequestScript s sc) :
    Inv (accepted i sc s) :=
  { hr.rephase hc .busy with
    rx_only_ready := fun _ => hx
    rx_incomplete := by rw [show (accepted i sc s).rx = [] from hx]; rfl
    no_script := by simp [accepted]
    issued_running := by simp [accepted]
    pos_in_script := fun _ => List.length_pos_of_ne_nil hsc.nonempty
    rsp_busy := by simp [accepted]
    init_script := by simp [accepted]
    busy_request := fun _ => ⟨hsc.length, fun _ => ⟨i, rfl, hi⟩⟩
    legal_script := hsc.legal
    legal_waits := hw }

theorem inv_exec {i : Instr} {t : State} (h : exec i s = .next t) : Inv t := by
  cases exec_outcome h with
  | refuses code result => subst result; exact inv_refused hr hc hx hw (.request i) code
  | accepts s' sc result supported writes script =>
    subst result
    have hr' := registers_of_shadowWrite writes hr
    cases writes <;> exact inv_accepted hr' hc hx hw supported script

end Arrival

/-! ## The invariant along a running script -/

section Script

variable {s : State} (h : Inv s) (hrun : Running s)

include h in
theorem inv_sampled : Inv (sampled s) := { h with }

include h in
theorem inv_emitLog (r : LogRecord) : Inv (s.emitLog r) := { h with }

include h hrun

theorem Inv.rx_of_running : s.rx = [] := h.rx_only_ready (not_ready_of_running hrun)

theorem Inv.rspOut_of_running : s.rspOut = none := by
  rcases hrun with hp | ⟨-, ho⟩
  · refine Option.eq_none_iff_forall_ne_some.2 fun r ho => ?_
    have busy := (h.rsp_busy r ho).1
    simp [hp] at busy
  · exact ho

/-- The script of a request runs in BUSY. -/
theorem Inv.busy_of_request {i : Instr} (hcur : s.cur = some (.request i)) : s.phase = .busy := by
  rcases hrun with hp | ⟨hp, -⟩
  · have := (h.init_script hp).1
    simp [hcur] at this
  · exact hp

/-- A running request's script ends, done or aborted, in the offer of its response. -/
theorem Inv.offers_response {i : Instr} (hcur : s.cur = some (.request i)) (code : RspCode) (p : Nat) :
    Inv { s with pos := p, issued := false, rspOut := some ⟨i.opcode, code⟩ } :=
  have busy := h.busy_of_request hrun hcur
  { h with
    no_script := by simp [busy]
    issued_running := by simp
    pos_in_script := by simp [Running, busy]
    rsp_busy := fun r ho => by cases ho; exact ⟨busy, by simp [curOpcode, hcur, currentOpcode]⟩
    busy_request := fun _ => ⟨(h.busy_request busy).1, by simp⟩ }

theorem inv_finishScript (p : Nat) : Inv (finishScript { s with pos := p, issued := false }) := by
  rcases finishScript_cases { s with pos := p, issued := false } with ⟨i, hcur, hf⟩ | ⟨-, hf⟩ <;> rw [hf]
  · exact h.offers_response hrun hcur .ok p
  · exact inv_of_sequencerEmpty { h.registers.rephase hrun.configured .ready with } (.inr (.inl rfl)) ⟨rfl, rfl, rfl, rfl, rfl⟩
      (h.rx_of_running hrun) h.legal_waits

theorem inv_advance : Inv (advance s) := by
  by_cases hlt : s.pos + 1 < s.script.length
  · rw [advance_inside hlt]
    exact { h with
      no_script := fun hp => absurd hp hrun.not_parked
      issued_running := by simp
      pos_in_script := fun _ => hlt }
  · rw [advance_last hlt]
    exact inv_finishScript h hrun _

theorem inv_abortScript : Inv (abortScript s) := by
  rcases abortScript_cases s with ⟨i, hcur, hf⟩ | ⟨-, hf⟩ <;> rw [hf]
  · exact h.offers_response hrun hcur .busError s.pos
  · have silent := h.rspOut_of_running hrun
    exact { h.registers.rephase hrun.configured .initFailed, h with
      rx_only_ready := fun _ => h.rx_of_running hrun
      no_script := by simp
      issued_running := by simp
      pos_in_script := by simp [Running]
      rsp_busy := by simp [silent]
      init_script := by simp
      busy_request := by simp }

theorem inv_completeAction (a : Action) (failed : Bool) : Inv (completeAction a failed s) := by
  rcases completeAction_cases a failed s with hc | ⟨-, -, -, hc⟩ | ⟨-, -, -, hc⟩ <;> rw [hc]
  · exact inv_advance h hrun
  · exact inv_advance (inv_emitLog h _) hrun
  · exact inv_abortScript h hrun

/-- An accepted action is one of the script's, so no zero wait goes out (R14, R120). -/
theorem Inv.issues {a : Action} (ha : s.script[s.pos]? = some a) : Inv { s with acts := s.acts ++ [a], issued := true } :=
  { h with
    issued_running := fun _ => hrun
    legal_waits := fun t ht => by
      rcases List.mem_append.1 ht with ht | ht
      · exact h.legal_waits t ht
      · cases List.mem_singleton.1 ht
        exact h.legal_script _ (List.mem_of_getElem? ha) }

theorem inv_runScript : Inv (runScript s) := by
  rcases runScript_cases s with hx | ⟨a, ha, -, -, hx⟩ | ⟨rest, -, -, hx⟩ | ⟨a, c, rest, -, -, -, -, hx⟩ | ⟨hnone, -⟩
  · rw [hx]
    exact h
  · exact hx ▸ h.issues hrun ha
  · exact hx ▸ { h with }
  · have hin : Inv { s with actIn := rest } := { h with }
    exact hx ▸ inv_completeAction hin hrun a _
  · have := h.pos_in_script hrun
    exact absurd (List.getElem?_eq_none_iff.1 hnone) (by omega)

end Script

/-! ## The invariant under the other steps -/

theorem inv_receive {s t : State} {bs : List Byte} (h : Inv s) (hp : s.phase = .ready)
    (hs : receive bs s = .next t) : Inv t := by
  have hr : Registers { s with rx := [] } := { h with }
  have hc : Configured { s with rx := [] } := .inr (.inl hp)
  cases receive_outcome hs with
  | request i result => exact inv_exec hr hc rfl h.legal_waits result
  | illegal op result => exact result ▸ inv_refused hr hc rfl h.legal_waits (.illegal op) .illegalOpcode
  | partly incomplete result =>
    exact result ▸ { h with rx_only_ready := fun hn => absurd hp hn, rx_incomplete := incomplete }

theorem inv_acceptByte {s t : State} (h : Inv s) (hp : s.phase = .ready) (hs : acceptByte s = .next t) : Inv t := by
  rcases acceptByte_cases hs with rfl | ⟨b, rest, -, hs⟩
  · exact h
  · have hin : Inv { s with reqIn := rest } := { h with }
    exact inv_receive hin hp hs

theorem inv_answered {s : State} (h : Inv s) {r : Response} (ho : s.rspOut = some r) (op : Byte) (code : RspCode) :
    Inv (answered op code s) := by
  have hp := (h.rsp_busy r ho).1
  exact inv_of_sequencerEmpty { h.registers.rephase (.inr (.inr (.inl hp))) .ready with } (.inr (.inl rfl))
    ⟨rfl, rfl, rfl, rfl, rfl⟩ (h.rx_only_ready (by simp [hp])) h.legal_waits

/-- The straps' row count is legal where it is read at all (R7, R32). -/
theorem rows?_legal {c : Straps} {n : Nat} (h : c.rows? = some n) : 1 ≤ n ∧ n ≤ 4 := by
  unfold Straps.rows? at h
  split at h
  next legal =>
    cases h
    exact legal
  next => cases h

section Reset

variable {s : State} (hw : ∀ t, Action.wait t ∈ s.acts → 1 ≤ t)

include hw

theorem inv_assertReset : Inv (assertReset s) :=
  inv_of_sequencerEmpty (.of_unconfigured (by simp [Configured, assertReset])) (.inl rfl) ⟨rfl, rfl, rfl, rfl, rfl⟩ rfl hw

theorem inv_enterConfigError : Inv (enterConfigError s) :=
  inv_of_sequencerEmpty (.of_unconfigured (by simp [Configured, enterConfigError])) (.inr (.inr rfl))
    ⟨rfl, rfl, rfl, rfl, rfl⟩ rfl hw

theorem inv_enterInit (f : Family) {n : Nat} (pol : Policy) (hn : 1 ≤ n ∧ n ≤ 4) : Inv (enterInit f n pol s) where
  rows_legal _ := hn
  fs_init _ := rfl
  em_other_bits _ := rfl
  dc_other_bits _ := rfl
  bl_byte_mode _ _ := rfl
  rx_only_ready _ := rfl
  rx_incomplete := rfl
  no_script := by simp [enterInit]
  issued_running := by simp [enterInit]
  pos_in_script _ := List.length_pos_of_ne_nil (initScript_ne_nil _ _ _ _)
  rsp_busy := by simp [enterInit]
  init_script _ := ⟨rfl, rfl⟩
  busy_request := by simp [enterInit]
  legal_script := legalScript_initScript (enterInit f n pol s) _ _ _
  legal_waits := hw

theorem inv_releaseReset : Inv (releaseReset s) := by
  unfold releaseReset
  split
  next f n p _ hrows _ => exact inv_enterInit hw f p (rows?_legal hrows)
  next => exact inv_enterConfigError hw

end Reset

/-! ## The statements about the invariant and the reset state -/

/-- Settles O10: each case of a step keeps the invariant, by the lemma about what it does to the state. -/
theorem stepKeepsInvariant : Obligations.StepKeepsInvariant := by
  intro s t h hs
  cases step_cases hs with
  | reset _ result => exact result ▸ inv_assertReset h.legal_waits
  | release _ _ result => exact result ▸ inv_releaseReset h.legal_waits
  | receives _ ready result => exact inv_acceptByte (inv_sampled h) ready result
  | runs _ running result => exact result ▸ inv_runScript (inv_sampled h) running
  | answers r _ offered result => exact result ▸ inv_answered (inv_sampled h) offered r.op r.code
  | waits result => exact result ▸ inv_sampled h

/-- `State.reset` is a fixed point of entering INIT with its own straps. -/
theorem reset_eq_enterInit : State.reset = enterInit .nibble 2 .swallow State.reset := rfl

/-- Settles O9: entering INIT establishes the invariant, and `State.reset` is such a state. -/
theorem invariantHoldsAtReset : Obligations.InvariantHoldsAtReset := by
  have none_emitted : ∀ t, Action.wait t ∈ State.reset.acts → 1 ≤ t := fun _ h => absurd h List.not_mem_nil
  rw [Obligations.InvariantHoldsAtReset, reset_eq_enterInit]
  exact inv_enterInit none_emitted .nibble .swallow (by decide)

theorem releaseReset_resetStraps {s : State} (h : s.cfg = resetStraps) :
    releaseReset s = enterInit .nibble 2 .swallow s := by
  rw [releaseReset, h]
  rfl

/-- Settles O52: the release enters INIT, and each field INIT does not write has its reset value. -/
theorem resetStateIsTheReleasedState : Obligations.ResetStateIsTheReleasedState := by
  intro s hq hready hp hcfg hparams hreq hin hacts hrsps hlogs hdraws
  rw [step_release (rstNow_quiet hq) hp, sampled_quiet hq, releaseReset_resetStraps hcfg, reset_eq_enterInit]
  obtain ⟨hrst, hpins⟩ := hq
  obtain ⟨hact, hrsp⟩ := hready
  simp only [enterInit, State.start, State.enc, State.P, abandon, hparams, hrst, hcfg, hact, hrsp, hpins, hreq, hin, hacts,
    hrsps, hlogs, hdraws]
  rfl

end Sys2Proof.Safety
end

section
/-! PROOFS. Requests as bytes (spec/30_encoding.md R90 to R101): the decoder and the encoder as inverses, the arrival of a
request's bytes, and the run from those bytes to the response (spec/60_exceptions.md R231). -/

namespace Sys2Proof

/-! ## The decoder and the encoder (R90 to R96) -/

theorem layoutOf_of_not_isOpcode {op : Byte} (h : isOpcode op = false) : layoutOf op = none := by
  simpa [isOpcode] using h

theorem layoutOf_of_isOpcode {op : Byte} (h : isOpcode op = true) : ∃ l, layoutOf op = some l :=
  Option.isSome_iff_exists.1 h

/-- R95, by evaluating the map at each of the 256 bytes (in the kernel: they are more than `decide`'s own depth limit). -/
theorem illegal_byte_count : ((List.range 256).filter fun n => !isOpcode (BitVec.ofNat 8 n)).length = 231 := by
  decide +kernel

theorem decode_illegal {b : Byte} (h : isOpcode b = false) (rest : List Byte) : decode (b :: rest) = .illegal b rest :=
  decodeOp_illegal (layoutOf_of_not_isOpcode h) rest

/-- After an opcode byte no operand is illegal (R95). -/
theorem decode_not_illegal {b : Byte} (h : isOpcode b = true) (c : Byte) (rest r : List Byte) :
    decode (b :: rest) ≠ .illegal c r := by
  obtain ⟨l, hl⟩ := layoutOf_of_isOpcode h
  rw [decode, decodeOp_layout hl]
  exact l.decode_not_illegal rest r c

theorem decode_encode (i : Instr) (rest : List Byte) : decode (encode i ++ rest) = .ok i rest := by
  obtain ⟨l, hl, hd, -⟩ := layoutOf_opcode i rest
  exact (decodeOp_layout hl _).trans hd

theorem encode_ne_nil (i : Instr) : encode i ≠ [] := List.cons_ne_nil _ _

theorem encode_length (i : Instr) : (encode i).length = requestLength i.opcode := by
  obtain ⟨l, hl, -, hlen⟩ := layoutOf_opcode i []
  simp [requestLength, hl, hlen, encode]

/-- What a layout reads stands in the bytes of the request it builds (R91). -/
theorem Layout.encode_of_decode {op : Byte} {l : Layout} (he : l.Encodes op) {bs rest : List Byte} {i : Instr}
    (h : l.decode bs = .ok i rest) : op :: bs = encode i ++ rest := by
  cases l with
  | n j =>
    cases h
    have hj : encode i = [op] := he
    simp [hj]
  | b f =>
    simp only [Layout.decode, decodeB] at h
    split at h <;> cases h
    simp [he _]
  | rc f =>
    simp only [Layout.decode, decodeRC] at h
    split at h <;> cases h
    simp [he _ _]
  | g f =>
    simp only [Layout.decode, decodeG] at h
    split at h <;> cases h
    simp [he _ _, Glyph.rows]

theorem encode_of_decode {bs rest : List Byte} {i : Instr} (h : decode bs = .ok i rest) : bs = encode i ++ rest := by
  cases bs with
  | nil => cases h
  | cons op bs =>
    rw [decode] at h
    cases hl : layoutOf op with
    | none => rw [decodeOp_illegal hl] at h; cases h
    | some l =>
      rw [decodeOp_layout hl] at h
      exact Layout.encode_of_decode (layoutOf_encodes hl) h

/-- Whole requests split off a stream one by one, whatever follows them (R90, R96). -/
theorem decodeStream_encodeAll (is : List Instr) (rest : List Byte) :
    decodeStream is.length (Machine.encodeAll is ++ rest) = (is.map Sum.inl, rest) := by
  induction is with
  | nil => rfl
  | cons i is ih =>
    have hbytes : Machine.encodeAll (i :: is) ++ rest = encode i ++ (Machine.encodeAll is ++ rest) := by
      simp [Machine.encodeAll]
    rw [hbytes, List.length_cons, decodeStream, decode_encode]
    simp [ih]

end Sys2Proof

namespace Sys2Proof.Machine

open Sys2Proof.Safety

/-! ## The arrival of a byte (R90, R95) -/

theorem receive_complete {bs r : List Byte} {i : Instr} (h : decode bs = .ok i r) (s : State) :
    receive bs s = exec i { s with rx := [] } := by simp [receive, h]

theorem receive_incomplete {bs : List Byte} (h : decode bs = .incomplete) (s : State) :
    receive bs s = .next { s with rx := bs } := by simp [receive, h]

theorem receive_illegal {bs r : List Byte} {b : Byte} (h : decode bs = .illegal b r) (s : State) :
    receive bs s = .next (refused (.illegal b) b .illegalOpcode { s with rx := [] }) := by
  simp [receive, h, execIllegal, raise_eq, currentOpcode]

/-- READY with a byte on offer and the pins quiet: the step is that byte's arrival. -/
theorem step_takes_byte {s : State} {b : Byte} {rest : List Byte} (hq : PinsQuiet s) (hp : s.phase = .ready)
    (hr : s.reqIn = b :: rest) : step s = receive (s.rx ++ [b]) { s with reqIn := rest } := by
  rw [step_ready hq hp, acceptByte, hr]

/-- An empty `S.rx` stays empty when a request is taken from it. -/
theorem emptied_rx {s : State} (hx : s.rx = []) : { s with rx := [] } = s := by rw [← hx]

theorem step_response_quiet {s : State} {r : Response} (hp : s.phase = .busy) (ho : s.rspOut = some r) (hq : PinsQuiet s)
    (hready : s.rspReady = true) : step s = .next (answered r.op r.code s) := by
  rw [step_response_accepted hp ho (rstNow_quiet hq) ((rspReadyNow_quiet hq).trans hready), sampled_quiet hq]

/-- A request-level error, once its response is accepted, leaves an idle block with one response more (R231, R233). -/
theorem step_refused {s : State} (h : Idle s) (hq : PinsQuiet s) (hready : s.rspReady = true) (c : Current) (op : Byte)
    (code : RspCode) : step (refused c op code s) = .next { s with rsps := s.rsps ++ [⟨op, code⟩] } := by
  obtain ⟨hphase, -, hscript, hpos, hcur, hissued, hrspOut⟩ := h
  rw [step_response_quiet (s := refused c op code s) rfl rfl hq hready]
  simp only [answered, refused, hphase, hscript, hpos, hcur, hissued, hrspOut]

theorem finishScript_request {s : State} {i : Instr} (h : s.cur = some (.request i)) :
    finishScript s = s.respond i.opcode .ok := by simp [finishScript, h]

theorem ShadowWrite.eq_shadows {s s' : State} (h : ShadowWrite s s') :
    ∃ EM DC BL, s' = { s with EM := EM, DC := DC, BL := BL } := by
  cases h <;> exact ⟨_, _, _, rfl⟩

end Sys2Proof.Machine

namespace Sys2Proof.Safety

open Sys2Proof.Machine

/-! ## Runs from a request's bytes to its response -/

/-- The bytes still to come of a request, taken one in each step, lead to its meaning (R90; log entry 8). -/
theorem run_remaining_bytes {i : Instr} {suf : List Byte} (hs : suf ≠ []) {rest : List Byte} {s : State}
    (hq : PinsQuiet s) (hp : s.phase = .ready) (hi : encode i = s.rx ++ suf) (hr : s.reqIn = suf ++ rest) :
    run suf.length s = exec i { s with rx := [], reqIn := rest } := by
  induction suf generalizing s with
  | nil => exact absurd rfl hs
  | cons b suf ih =>
    have hstep := step_takes_byte hq hp hr
    have hi' : encode i = (s.rx ++ [b]) ++ suf := by rw [hi, List.append_assoc]; rfl
    cases suf with
    | nil =>
      have hd : decode (s.rx ++ [b]) = .ok i [] := by
        rw [← List.append_nil (s.rx ++ [b]), ← hi', ← List.append_nil (encode i), decode_encode]
      exact (run_one s).trans (hstep.trans (receive_complete hd _))
    | cons b' suf =>
      have hd := decode_prefix_incomplete i (s.rx ++ [b]) (b' :: suf) hi' (List.cons_ne_nil _ _)
      rw [receive_incomplete hd] at hstep
      rw [List.length_cons, run_succ hstep]
      exact ih (List.cons_ne_nil _ _) hq hp hi' rfl

theorem run_request_bytes {s : State} {i : Instr} {rest : List Byte} (hq : PinsQuiet s) (hp : s.phase = .ready)
    (hx : s.rx = []) (hr : s.reqIn = encode i ++ rest) : run (encode i).length s = exec i { s with reqIn := rest } :=
  calc run (encode i).length s
      = exec i { s with rx := [], reqIn := rest } :=
        run_remaining_bytes (encode_ne_nil i) hq hp (by rw [hx, List.nil_append]) hr
    _ = exec i { s with reqIn := rest } := congrArg (exec i) (emptied_rx (s := { s with reqIn := rest }) hx)

theorem firstFailure_cons_eq_none {a : Action} {as : List Action} {c : Completion} {cs : List Completion} :
    firstFailure (a :: as) (c :: cs) = none ↔ fails a c = false ∧ firstFailure as cs = none := by
  cases h : fails a c <;> simp [firstFailure, h]

/-- Completions that answer each action of a script, with a bus error for no write (R121, R236). -/
structure Unfailed (as : List Action) (cs : List Completion) : Prop where
  length   : cs.length = as.length
  arrives  : Completion.stale ∉ cs
  succeeds : firstFailure as cs = none

theorem Unfailed.head_tail {a : Action} {as : List Action} {ds : List Completion} (h : Unfailed (a :: as) ds) :
    ∃ c cs, ds = c :: cs ∧ c ≠ .stale ∧ fails a c = false ∧ Unfailed as cs := by
  obtain ⟨length, arrives, succeeds⟩ := h
  cases ds with
  | nil => cases length
  | cons c cs =>
    obtain ⟨hfails, htail⟩ := firstFailure_cons_eq_none.1 succeeds
    exact ⟨c, cs, rfl, (List.ne_of_not_mem_cons arrives).symm, hfails, Nat.succ.inj length,
      List.not_mem_of_not_mem_cons arrives, htail⟩

theorem firstFailure_all_ok (as : List Action) {cs : List Completion} (h : ∀ c ∈ cs, c = .ok) :
    firstFailure as cs = none := by
  induction as generalizing cs with
  | nil => rfl
  | cons a as ih =>
    cases cs with
    | nil => rfl
    | cons c cs =>
      obtain ⟨rfl, hcs⟩ := List.forall_mem_cons.1 h
      exact firstFailure_cons_eq_none.2 ⟨Bool.and_false _, ih hcs⟩

theorem unfailed_of_all_ok {as : List Action} {cs : List Completion} (hlen : cs.length = as.length)
    (h : ∀ c ∈ cs, c = .ok) : Unfailed as cs where
  length := hlen
  arrives := fun hc => by cases h _ hc
  succeeds := firstFailure_all_ok as h

/-- The rest of a script whose completions all arrive and none of whose writes fails: each action is emitted in two steps,
and the script ends, under every policy (R121, R231; log entry 7). -/
theorem run_unfailed_script {todo : List Action} (hne : todo ≠ []) {cs more : List Completion} {s : State}
    (hq : PinsQuiet s) (hact : s.actReady = true) (hrun : Running s) (hi : s.issued = false)
    (htodo : s.script.drop s.pos = todo) (hin : s.actIn = cs ++ more) (hok : Unfailed todo cs) :
    run (2 * todo.length) s
      = .next (finishScript { s with pos := s.script.length, acts := s.acts ++ todo, actIn := more }) := by
  induction todo generalizing s cs with
  | nil => exact absurd rfl hne
  | cons a todo ih =>
    obtain ⟨c, cs, rfl, hc, hfails, hok⟩ := hok.head_tail
    have ha : s.script[s.pos]? = some a := by rw [← List.head?_drop, htodo]; rfl
    have hdrop : s.script.drop (s.pos + 1) = todo := by rw [← List.tail_drop, htodo]; rfl
    have hpos : s.script.length = s.pos + 1 + todo.length := by
      have := congrArg List.length htodo
      simp only [List.length_drop, List.length_cons] at this
      omega
    let u : State := { s with acts := s.acts ++ [a], issued := true, actIn := cs ++ more }
    have htwo : run (2 * (a :: todo).length) s = run (2 * todo.length) (advance u) := by
      rw [List.length_cons, Nat.mul_succ, run_one_action (rest := cs ++ more) hq hact hrun hi ha hin hc,
        completeAction_success a c _ hfails]
    rw [htwo]
    cases todo with
    | nil =>
      obtain rfl : cs = [] := List.eq_nil_of_length_eq_zero hok.length
      rw [advance_last (s := u) (by simp [u, hpos])]
      simp [u, hpos, hi, run_zero]
    | cons b todo =>
      rw [advance_inside (s := u) (by simp [u, hpos]), ih (List.cons_ne_nil _ _)
        (s := { u with pos := s.pos + 1, issued := false }) hq hact hrun rfl hdrop rfl hok]
      simp [u, hi]

/-- An accepted request none of whose writes fails is emitted whole and answered OK, under every policy (R231). -/
theorem run_unfailed_request {s : State} {sc : List Action} {cs more : List Completion} (i : Instr) (hq : PinsQuiet s)
    (hready : ReceiversReady s) (hne : sc ≠ []) (hin : s.actIn = cs ++ more) (hok : Unfailed sc cs) :
    run (2 * sc.length + 1) (accepted i sc s)
      = .next { answered i.opcode .ok s with acts := s.acts ++ sc, actIn := more } := by
  obtain ⟨hact, hrsp⟩ := hready
  let u : State := { accepted i sc s with pos := sc.length, acts := s.acts ++ sc, actIn := more }
  have hscript : run (2 * sc.length) (accepted i sc s) = .next (u.respond i.opcode .ok) := by
    rw [run_unfailed_script (s := accepted i sc s) hne hq hact (.inr ⟨rfl, rfl⟩) rfl rfl hin hok,
      finishScript_request (i := i) rfl]
    rfl
  rw [run_add hscript, run_one]
  exact step_response_quiet (s := u.respond i.opcode .ok) rfl rfl hq hrsp

/-! ## The statements about bytes and requests -/

/-- Settles O1: a request's own layout reads its operands back. -/
theorem decodeEncodeAgree : Obligations.DecodeEncodeAgree :=
  fun i rest => ⟨decode_encode i rest, encode_length i⟩

/-- Settles O2: the layout of the first byte is the one its requests are encoded with. -/
theorem encodeDecodeAgree : Obligations.EncodeDecodeAgree := fun _ _ _ h => encode_of_decode h

/-- Settles O5, by induction over the requests. -/
theorem streamSplitsIntoItsRequests : Obligations.StreamSplitsIntoItsRequests := by
  intro is
  simpa using decodeStream_encodeAll is []

/-- Settles O3: the byte's one step offers the refusal, and its acceptance restores the idle block. -/
theorem illegalOpcodeByteIsAnswered : Obligations.IllegalOpcodeByteIsAnswered := by
  refine ⟨illegal_byte_count, rfl, rfl, fun b rest h => decode_illegal h rest,
    fun b c rest r h => decode_not_illegal h c rest r, fun s b rest hq hidle hr hb => ?_⟩
  have ⟨hp, hx, _⟩ := hidle
  let u : State := { s with reqIn := rest }
  have hstep : step s = .next (refused (.illegal b) b .illegalOpcode u) := by
    rw [step_takes_byte hq hp hr, hx, List.nil_append, receive_illegal (decode_illegal hb []), emptied_rx (s := u) hx]
  refine ⟨hstep, fun hready => ?_⟩
  rw [run_succ hstep, run_one, step_refused (s := u) hidle hq hready]

/-- Settles O4: the listed bytes are evaluated; 0xFF raises ILLEGAL_OPCODE in every state. -/
theorem specEncodingsDecode : Obligations.SpecEncodingsDecode :=
  ⟨by decide, decode_illegal rfl [], fun s => raise_eq (.illegal 0xFF) .illegalOpcode s⟩

/-- Settles O6: the step is the byte's arrival, and what has arrived decides. -/
theorem stepRunsTheDecodedRequest : Obligations.StepRunsTheDecodedRequest := by
  intro s b rest hq hp hr
  rw [step_takes_byte hq hp hr]
  exact ⟨fun i r hd => receive_complete hd _, fun hd => receive_incomplete hd _⟩

/-- Settles O7, by induction over the bytes still to come. -/
theorem requestBytesReachTheirMeaning : Obligations.RequestBytesReachTheirMeaning :=
  fun _ _ _ hq hp hx hr => run_request_bytes hq hp hx hr

/-- Settles O51: the bytes run to the request's meaning, which keeps the ports, and its script to the response. -/
theorem requestRunsFromBytesToResponse : Obligations.RequestRunsFromBytesToResponse := by
  intro s t i rest cs more hq hready ⟨hp, hx, _⟩ hr hexec hout hin hlen hcs
  rw [Nat.add_assoc, run_add ((run_request_bytes hq hp hx hr).trans hexec)]
  cases exec_outcome hexec with
  | refuses code result => simp [result, refused] at hout
  | accepts s' sc result _ writes script =>
    obtain ⟨EM, DC, BL, rfl⟩ := writes.eq_shadows
    subst result
    exact run_unfailed_request (s := { s with reqIn := rest, EM := EM, DC := DC, BL := BL }) i hq hready script.nonempty hin
      (unfailed_of_all_ok hlen hcs)

end Sys2Proof.Safety
end

section
/-! PROOFS. The assembler (spec/30_encoding.md R97 to R99): it accepts what is well-formed, operand by operand. -/

namespace Sys2Proof.Machine

/-- Reading a list item by item, each under a check, succeeds exactly if every item passes. -/
theorem mapM_ite_some {α β : Type} (p : α → Prop) [DecidablePred p] (f : α → β) (l : List α) :
    l.mapM (fun a => if p a then some (f a) else none) = if ∀ a ∈ l, p a then some (l.map f) else none := by
  induction l with
  | nil => simp
  | cons a l ih =>
    rw [List.mapM_cons, ih]
    by_cases ha : p a
    · by_cases hl : ∀ x ∈ l, p x
      · rw [if_pos ha, if_pos hl, if_pos (List.forall_mem_cons.2 ⟨ha, hl⟩)]
        rfl
      · rw [if_pos ha, if_neg hl, if_neg fun h => hl (List.forall_mem_cons.1 h).2]
        rfl
    · rw [if_neg ha, if_neg fun h => ha (List.forall_mem_cons.1 h).1]
      rfl

theorem byteArg_isSome (a : AsmArg) : (byteArg a).isSome = a.isByte := by
  cases a with
  | num n => by_cases h : n ≤ 255 <;> simp [byteArg, AsmArg.isByte, h]
  | chr c => by_cases h : c ≤ 255 <;> simp [byteArg, AsmArg.isByte, h]
  | rows gs => rfl

/-- A list of eight has eight named items. -/
theorem exists_eight_of_length {α : Type} {l : List α} (h : l.length = 8) :
    ∃ a b c d e f g k, l = [a, b, c, d, e, f, g, k] := by
  match l, h with
  | [a, b, c, d, e, f, g, k], _ => exact ⟨a, b, c, d, e, f, g, k, rfl⟩

theorem glyphArg_isSome (a : AsmArg) : (glyphArg a).isSome = a.isRows := by
  cases a with
  | num n => rfl
  | chr c => rfl
  | rows gs =>
    simp only [glyphArg, byteArg, mapM_ite_some, AsmArg.isRows]
    by_cases hrange : ∀ n ∈ gs, n ≤ 255
    · have hall : (gs.all fun n => decide (n ≤ 255)) = true := by simpa using hrange
      rw [if_pos hrange, hall, Bool.and_true]
      by_cases hlen : gs.length = 8
      · obtain ⟨a, b, c, d, e, f, g, k, rfl⟩ := exists_eight_of_length hlen
        rfl
      · split
        next h =>
          have := congrArg List.length (Option.some.inj h)
          simp [hlen] at this
        next => simp [hlen]
    · have hall : (gs.all fun n => decide (n ≤ 255)) = false := by simpa using hrange
      rw [if_neg hrange, hall, Bool.and_false]
      rfl

/-! ## The operands of each format (R91, R98) -/

theorem argsN_isSome (i : Instr) (args : List AsmArg) : (argsN i args).isSome = Format.n.accepts args := by
  cases args <;> rfl

theorem argsB_isSome (f : Byte → Instr) (args : List AsmArg) : (argsB f args).isSome = Format.b.accepts args := by
  match args with
  | [] => rfl
  | [a] => simp [argsB, Format.accepts, byteArg_isSome]
  | _ :: _ :: _ => rfl

theorem argsRC_isSome (f : Byte → Byte → Instr) (args : List AsmArg) :
    (argsRC f args).isSome = Format.rc.accepts args := by
  match args with
  | [] => rfl
  | [_] => rfl
  | [r, c] =>
    simp only [argsRC, Format.accepts, ← byteArg_isSome]
    cases byteArg r <;> cases byteArg c <;> rfl
  | _ :: _ :: _ :: _ => rfl

theorem argsG_isSome (f : Byte → Glyph → Instr) (args : List AsmArg) :
    (argsG f args).isSome = Format.g.accepts args := by
  match args with
  | [] => rfl
  | [_] => rfl
  | [slot, rows] =>
    simp only [argsG, Format.accepts, ← byteArg_isSome, ← glyphArg_isSome]
    cases byteArg slot <;> cases glyphArg rows <;> rfl
  | _ :: _ :: _ :: _ => rfl

/-- A request is built exactly if the operands fit the mnemonic's format (R94, R97). -/
theorem buildRequest_isSome (m : Mnemonic) (args : List AsmArg) :
    (buildRequest m args).isSome = m.format.accepts args := by
  cases m with
  | writeChar | setBrightness | fadeOnce | fadeBlink => exact argsB_isSome _ args
  | cursorMove => exact argsRC_isSome _ args
  | createChar => exact argsG_isSome _ args
  | _ => exact argsN_isSome _ args

/-- WRITE_STRING, whole: one WRITE_CHAR for each code, or refused if one is out of range (R97, R99). -/
theorem assemble_writeString (codes : List Nat) :
    assemble (.writeString codes)
      = if ∀ c ∈ codes, c ≤ 255 then some (codes.map fun c => Instr.writeChar (BitVec.ofNat 8 c)) else none := by
  have item : ∀ c, (byteArg (.chr c)).map Instr.writeChar
      = if c ≤ 255 then some (Instr.writeChar (BitVec.ofNat 8 c)) else none := fun c => by
    by_cases h : c ≤ 255 <;> simp [byteArg, h]
  simp only [assemble, item, mapM_ite_some]

/-! ## The statements about the assembler -/

/-- Settles O53: a request is built, or a string read, exactly if each operand is in range. -/
theorem assemblerRefusesWhatIsIllFormed : Obligations.AssemblerRefusesWhatIsIllFormed := by
  intro l
  cases l with
  | request m args => rw [assemble, Option.isSome_map, buildRequest_isSome, AsmLine.wf]
  | writeString codes =>
    rw [assemble_writeString, AsmLine.wf, Bool.eq_iff_iff, Option.isSome_ite, List.all_eq_true]
    simp only [decide_eq_true_eq]

/-- Settles O54: every code is in range, and WRITE_CHAR's bytes are 01 and the code. -/
theorem writeStringExpandsToWriteChars : Obligations.WriteStringExpandsToWriteChars := by
  intro codes h
  rw [assemble_writeString, if_pos h, Option.map_some, encodeAll, List.flatMap_map]
  rfl

end Sys2Proof.Machine
end

section
/-! PROOFS. The two encoders (spec/40_encoders.md R120 to R130): the writes of a byte on either path, what an expander byte
carries, and what a running script leaves as it is. -/

namespace Sys2Proof.Machine

open Sys2Proof.Safety

/-! ## The paths of each family (R125 to R127) -/

theorem cmd_nibble {e : Enc} (h : e.family = .nibble) (b : Byte) : cmd e b = nibByte e b false := by rw [cmd, h]

theorem dat_nibble {e : Enc} (h : e.family = .nibble) (b : Byte) : dat e b = nibByte e b true := by rw [dat, h]

theorem cmd_byteMode {e : Enc} (h : e.family = .byteMode) (b : Byte) : cmd e b = byteWrite e b false := by rw [cmd, h]

theorem dat_byteMode {e : Enc} (h : e.family = .byteMode) (b : Byte) : dat e b = byteWrite e b true := by rw [dat, h]

/-- The two paths differ in their `rs` alone. -/
theorem path_dispatch {e : Enc} {b : Byte} {p : List Action × Bool} (hp : p ∈ [(cmd e b, false), (dat e b, true)]) :
    (e.family = .nibble → p.1 = nibByte e b p.2) ∧ (e.family = .byteMode → p.1 = byteWrite e b p.2) := by
  simp only [List.mem_cons, List.not_mem_nil, or_false] at hp
  rcases hp with rfl | rfl
  · exact ⟨fun h => cmd_nibble h b, fun h => cmd_byteMode h b⟩
  · exact ⟨fun h => dat_nibble h b, fun h => dat_byteMode h b⟩

/-! ## The writes of a nibble byte (R123, R124) -/

/-- R123: the step wait stands after the first and after the second write, or there is none. -/
theorem nibWrite_eq (e : Enc) (n : Nibble) (rs : Bool) :
    nibWrite e n rs =
      if e.P.tNibStep = 0 then
        [.wb e.addr (xb e n rs false), .wb e.addr (xb e n rs true), .wb e.addr (xb e n rs false)]
      else
        [.wb e.addr (xb e n rs false), .wait e.P.tNibStep, .wb e.addr (xb e n rs true), .wait e.P.tNibStep,
          .wb e.addr (xb e n rs false)] := by
  by_cases h : e.P.tNibStep = 0
  · rw [if_pos h, nibWrite, h, waitFor_zero]
    rfl
  · rw [if_neg h, nibWrite, waitFor_pos h]
    rfl

/-- R124: the low nibble's three bytes, then the high nibble's. -/
theorem nibByte_bytes (e : Enc) (b : Byte) (rs : Bool) :
    (nibByte e b rs).filterMap expanderByte
      = [xb e (lowNibble b) rs false, xb e (lowNibble b) rs true, xb e (lowNibble b) rs false,
         xb e (highNibble b) rs false, xb e (highNibble b) rs true, xb e (highNibble b) rs false] := by
  rw [nibByte, List.filterMap_append, nibWrite_bytes, nibWrite_bytes]
  rfl

theorem nibByte_length_eq (e : Enc) (b : Byte) (rs : Bool) :
    (nibByte e b rs).length = 6 + (if e.P.tNibStep = 0 then 0 else 4) := by
  rw [nibByte, List.length_append, nibWrite_length, nibWrite_length]
  split <;> rfl

theorem mem_nibByte {e : Enc} {b : Byte} {rs : Bool} {a : Action} (h : a ∈ nibByte e b rs) :
    (∃ v, a = .wb e.addr v) ∨ a = .wait e.P.tNibStep := by
  have ⟨n, hn⟩ : ∃ n, a ∈ nibWrite e n rs := (List.mem_append.1 h).elim (⟨_, ·⟩) (⟨_, ·⟩)
  rcases mem_nibWrite hn with ⟨en, hw⟩ | ⟨hw, -⟩
  · exact .inl ⟨_, hw⟩
  · exact .inr hw

/-- The byte at each index: the low nibble's before index 3, EN high at the middle of each three. -/
theorem nibByte_byte_at {e : Enc} {b : Byte} {rs : Bool} {v : Byte} {k : Nat}
    (h : ((nibByte e b rs).filterMap expanderByte)[k]? = some v) :
    v = xb e (if k < 3 then lowNibble b else highNibble b) rs (k == 1 || k == 4) := by
  rw [nibByte_bytes] at h
  match k, h with
  | 0, h | 1, h | 2, h | 3, h | 4, h | 5, h =>
    cases h
    rfl
  | k + 6, h => simp at h

/-! ## What an expander byte carries (R122, R130) -/

/-- R9 item 1: each of the three masks has a bit set. -/
theorem WfParams_masks_ne_zero (p : WfParams) : p.val.rsMask ≠ 0 ∧ p.val.enMask ≠ 0 ∧ p.val.blMask ≠ 0 := by
  obtain ⟨-, h, -⟩ := WfParams_checks p
  simp only [Params.item1, Bool.and_eq_true] at h
  obtain ⟨⟨⟨⟨⟨rs, en⟩, bl⟩, -⟩, -⟩, -⟩ := h
  exact ⟨ne_zero_of_oneBit rs, ne_zero_of_oneBit en, ne_zero_of_oneBit bl⟩

/-- A mask clear of the nibble field reads nothing of a placed nibble. -/
theorem placed_nibble_and_of_clear {k : Nat} (hk : k ≤ 4) (n : Nibble) {m : Byte} (h : m &&& ((0x0F : Byte) <<< k) = 0) :
    (n.setWidth 8 <<< k : Byte) &&& m = 0 := by
  rw [← nibble_in_field hk n, BitVec.and_assoc, BitVec.and_comm _ m, h]
  exact BitVec.and_zero

/-- R122: of the RS mask an expander byte carries `rs`. -/
theorem xb_rs_bit (e : Enc) (n : Nibble) (rs en : Bool) : xb e n rs en &&& e.P.rsMask = maskIf rs e.P.rsMask := by
  obtain ⟨rsEn, rsBl, -, rsField, -, -, hk⟩ := WfParams_masks e.params
  have field := placed_nibble_and_of_clear hk n rsField
  have enBit := maskIf_and_of_clear en ((BitVec.and_comm _ _).trans rsEn)
  have blBit := maskIf_and_of_clear e.BL ((BitVec.and_comm _ _).trans rsBl)
  simp only [xb, Enc.P, BitVec.and_or_distrib_right, field, maskIf_and_self, enBit, blBit]
  simp

/-- R122: of the EN mask an expander byte carries `en`. -/
theorem xb_en_bit (e : Enc) (n : Nibble) (rs en : Bool) : xb e n rs en &&& e.P.enMask = maskIf en e.P.enMask := by
  obtain ⟨rsEn, -, enBl, -, enField, -, hk⟩ := WfParams_masks e.params
  have field := placed_nibble_and_of_clear hk n enField
  have rsBit := maskIf_and_of_clear rs rsEn
  have blBit := maskIf_and_of_clear e.BL ((BitVec.and_comm _ _).trans enBl)
  simp only [xb, Enc.P, BitVec.and_or_distrib_right, field, maskIf_and_self, rsBit, blBit]
  simp

theorem nibble_within_low_bits : ∀ n : Nibble, (n.setWidth 8 : Byte) &&& 0x0F = n.setWidth 8 := by decide

/-- R122: the nibble field of an expander byte reads back the nibble. -/
theorem xb_nibble_field (e : Enc) (n : Nibble) (rs en : Bool) :
    (xb e n rs en >>> e.P.nibShift) &&& (0x0F : Byte) = n.setWidth 8 := by
  obtain ⟨-, -, -, rsField, enField, blField, hk⟩ := WfParams_masks e.params
  have rsBit := outside_field_reads_zero hk (maskIf_and_of_clear rs rsField)
  have enBit := outside_field_reads_zero hk (maskIf_and_of_clear en enField)
  have blBit := outside_field_reads_zero hk (maskIf_and_of_clear e.BL blField)
  simp only [xb, Enc.P, BitVec.ushiftRight_or_distrib, BitVec.and_or_distrib_right, nibble_read_back hk,
    nibble_within_low_bits, rsBit, enBit, blBit]
  simp

theorem lowNibble_of_nibble : ∀ n : Nibble, lowNibble (n.setWidth 8) = n := by decide

theorem lowNibble_setWidth : ∀ b : Byte, (lowNibble b).setWidth 8 = b &&& 0x0F := by decide

theorem highNibble_setWidth : ∀ b : Byte, (highNibble b).setWidth 8 = b >>> 4 := by decide

/-- R130: under one parameter set an expander byte decodes uniquely back to what it was composed from. -/
theorem xb_decodes_uniquely {e e' : Enc} (hP : e'.P = e.P) {n n' : Nibble} {rs rs' en en' : Bool}
    (h : xb e n rs en = xb e' n' rs' en') : n = n' ∧ rs = rs' ∧ en = en' ∧ e.BL = e'.BL := by
  obtain ⟨rs0, en0, bl0⟩ := WfParams_masks_ne_zero e.params
  have nib := xb_nibble_field e' n' rs' en'
  have rsBit := xb_rs_bit e' n' rs' en'
  have enBit := xb_en_bit e' n' rs' en'
  have blBit := xb_backlight_bit e' n' rs' en'
  rw [hP, ← h] at nib rsBit enBit blBit
  rw [xb_nibble_field] at nib
  rw [xb_rs_bit] at rsBit
  rw [xb_en_bit] at enBit
  rw [xb_backlight_bit] at blBit
  have nibbles : n = n' := by rw [← lowNibble_of_nibble n, nib, lowNibble_of_nibble]
  exact ⟨nibbles, maskIf_injective rs0 rsBit, maskIf_injective en0 enBit,
    maskIf_injective bl0 blBit⟩

/-! ## What a running script leaves as it is (R41, R128) -/

/-- The shadows a request may write are the same in `s` and `t`, and so are the script and what is current, unless the block
is READY. -/
structure KeepsScript (s t : State) : Prop where
  EM : t.EM = s.EM
  DC : t.DC = s.DC
  BL : t.BL = s.BL
  script : t.phase = .ready ∨ (t.script = s.script ∧ t.cur = s.cur)

theorem finishScript_keepsScript (s : State) : KeepsScript s (finishScript s) := by
  rcases finishScript_cases s with ⟨i, -, h⟩ | ⟨-, h⟩ <;> rw [h]
  · exact ⟨rfl, rfl, rfl, .inr ⟨rfl, rfl⟩⟩
  · exact ⟨rfl, rfl, rfl, .inl rfl⟩

theorem abortScript_keepsScript (s : State) : KeepsScript s (abortScript s) := by
  rcases abortScript_cases s with ⟨i, -, h⟩ | ⟨-, h⟩ <;> rw [h] <;> exact ⟨rfl, rfl, rfl, .inr ⟨rfl, rfl⟩⟩

theorem advance_keepsScript (s : State) : KeepsScript s (advance s) := by
  by_cases h : s.pos + 1 < s.script.length
  · rw [advance_inside h]
    exact ⟨rfl, rfl, rfl, .inr ⟨rfl, rfl⟩⟩
  · rw [advance_last h]
    exact { finishScript_keepsScript { s with pos := s.pos + 1, issued := false } with }

theorem completeAction_keepsScript (a : Action) (failed : Bool) (s : State) :
    KeepsScript s (completeAction a failed s) := by
  rcases completeAction_cases a failed s with h | ⟨-, -, -, h⟩ | ⟨-, -, -, h⟩ <;> rw [h]
  · exact advance_keepsScript s
  · exact { advance_keepsScript (s.emitLog _) with }
  · exact abortScript_keepsScript s

theorem runScript_keepsScript (s : State) : KeepsScript s (runScript s) := by
  rcases runScript_cases s with h | ⟨a, -, -, -, h⟩ | ⟨rest, -, -, h⟩ | ⟨a, c, rest, -, -, -, -, h⟩ | ⟨-, h⟩ <;> rw [h]
  · exact ⟨rfl, rfl, rfl, .inr ⟨rfl, rfl⟩⟩
  · exact ⟨rfl, rfl, rfl, .inr ⟨rfl, rfl⟩⟩
  · exact ⟨rfl, rfl, rfl, .inr ⟨rfl, rfl⟩⟩
  · exact { completeAction_keepsScript a _ { s with actIn := rest } with }
  · exact finishScript_keepsScript s

/-- With `rst` low a step of INIT or BUSY keeps the script until the block is READY. -/
theorem step_keepsScript {s t : State} (hp : s.phase = .busy ∨ s.phase = .init) (hr : rstNow s = false)
    (h : step s = .next t) : KeepsScript s t := by
  cases step_cases h with
  | reset high _ => simp [hr] at high
  | release _ phase _ => simp [phase] at hp
  | receives _ ready _ => simp [ready] at hp
  | runs _ _ result => exact result ▸ { runScript_keepsScript (sampled s) with }
  | answers r _ _ result => exact result ▸ ⟨rfl, rfl, rfl, .inl rfl⟩
  | waits result => exact result ▸ ⟨rfl, rfl, rfl, .inr ⟨rfl, rfl⟩⟩

theorem SameConfig.enc_eq {s t : State} (h : SameConfig s t) (hBL : t.BL = s.BL) : t.enc = s.enc := by
  rw [State.enc, h.params, h.family, h.addr, hBL, State.enc]

end Sys2Proof.Machine

namespace Sys2Proof.Safety

open Sys2Proof.Machine

/-! ## The statements about the encoders -/

/-- Settles O11: the one action a step can emit stands in the script, and every action of the script is legal. -/
theorem emittedActionsAreLegal : Obligations.EmittedActionsAreLegal := by
  intro s t a hinv h hacts
  have grew : t.acts ≠ s.acts := by simp [hacts]
  cases step_portEvent h with
  | still ports _ => exact absurd ports.acts grew
  | byte _ ports => exact absurd ports.acts grew
  | action b _ here _ _ result =>
    subst result
    cases List.append_cancel_left hacts
    exact hinv.legal_script a (List.mem_of_getElem? here)
  | response r _ _ _ result => exact absurd (by rw [result]; rfl) grew
  | logged r _ ports => exact absurd ports.acts grew

/-- Settles O21: no step but those of `rst` writes the configuration, and a running script writes no shadow. -/
theorem encoderInputsFixedWhileRunning : Obligations.EncoderInputsFixedWhileRunning := by
  intro s t hp hr h
  have notReset : s.phase ≠ .reset := by rcases hp with hp | hp <;> simp [hp]
  have notReady : s.phase ≠ .ready := by rcases hp with hp | hp <;> simp [hp]
  have config := step_sameConfig hr notReset h
  have kept := step_keepsScript hp hr h
  exact ⟨config.enc_eq kept.BL, kept.EM, kept.DC, config.FS,
    fun same => kept.script.resolve_left fun ready => notReady (same.symm.trans ready)⟩

/-- Settles O23. -/
theorem pathsDispatchOnFamily : Obligations.PathsDispatchOnFamily := fun _ b =>
  ⟨fun h => ⟨cmd_nibble h b, dat_nibble h b⟩, fun h => ⟨cmd_byteMode h b, dat_byteMode h b⟩⟩

/-- Settles O24: a path is its family's one write of the byte, and a nibble byte is two nibble writes. -/
theorem logicalByteActionCounts : Obligations.LogicalByteActionCounts := by
  refine ⟨nibWrite_eq, fun e b p hp => ⟨fun hn => ?_, fun hb => ?_⟩⟩
  · rw [(path_dispatch hp).1 hn]
    refine ⟨?_, nibByte_bytes e b p.2, nibByte_length_eq e b p.2, fun a => mem_nibByte⟩
    rw [nibByte, nibWrite_eq, nibWrite_eq]
  · exact ⟨_, (path_dispatch hp).2 hb, (WfParams_waits e.params).1⟩

/-- Settles O25: each of the six bytes is an expander byte, and an expander byte reads back what it was composed from. -/
theorem nibbleByteFraming : Obligations.NibbleByteFraming := by
  refine ⟨fun e b rs => by rw [nibByte_bytes]; rfl, fun e b rs v k h => ?_,
    fun e n n' rs rs' en en' bl bl' => xb_decodes_uniquely (e := { e with BL := bl }) (e' := { e with BL := bl' }) rfl⟩
  rw [nibByte_byte_at h, xb_nibble_field, apply_ite (BitVec.setWidth 8), lowNibble_setWidth, highNibble_setWidth]
  exact ⟨xb_rs_bit .., xb_en_bit .., xb_backlight_bit .., rfl, xb_within_expanderBits ..⟩

end Sys2Proof.Safety
end

section
/-! PROOFS. Text and cursor operations (spec/41_text_cursor.md R150 to R155): the address of CURSOR_MOVE as a natural number,
and what each of the four requests is accepted with or refused for. -/

namespace Sys2Proof.Machine

open Sys2Proof.Safety

/-! ## The clamped row and its offset (R153) -/

theorem clampRow_bounds {n : Nat} (hn : 1 ≤ n) (row : Byte) : 1 ≤ clampRow n row ∧ clampRow n row ≤ n :=
  ⟨le_min (le_max_right _ _) hn, min_le_right _ _⟩

/-- R155: past the last row only the row count matters. -/
theorem clampRow_past_last {n : Nat} {row : Byte} (h : n ≤ row.toNat) : clampRow n row = n :=
  min_eq_right (le_max_of_le_left h)

theorem length_rowOffsets {n : Nat} (hn : n ≤ 4) (f : Family) : n ≤ (rowOffsets f n).length := by
  unfold rowOffsets
  split
  · assumption
  · cases f <;> exact hn

/-- R153: "never indexed out of bounds". -/
theorem rowOffsets_clampRow {n : Nat} (hn : 1 ≤ n) (hn' : n ≤ 4) (f : Family) (row : Byte) :
    (rowOffsets f n)[clampRow n row - 1]? = some (rowOffset f n (clampRow n row)) := by
  have hr := clampRow_bounds hn row
  have hl := length_rowOffsets hn' f
  have inside : clampRow n row - 1 < (rowOffsets f n).length := by omega
  rw [rowOffset, List.getD_eq_getElem _ _ inside, List.getElem?_eq_getElem inside]

theorem rowOffsets_eq_ite (f : Family) (n : Nat) :
    rowOffsets f n = if n ≤ 2 then [0x00, 0x40]
      else if f = .nibble then [0x00, 0x40, 0x14, 0x54] else [0x00, 0x20, 0x40, 0x60] := by
  cases f <;> rfl

/-- R152: `rowOffset(f, n, 1) = 0x00` in every table. -/
theorem rowOffset_first (f : Family) (n : Nat) : rowOffset f n 1 = 0 := by
  rw [rowOffset, rowOffsets_eq_ite]
  split_ifs <;> rfl

/-! ## The address of CURSOR_MOVE (R154) -/

/-- The address in natural numbers; it is R154's integer wherever the column is at least 1 (`cursorAddress_eq`). -/
def cursorTarget (s : State) (row col : Byte) : Nat :=
  col.toNat - 1 + rowOffset s.family s.rows (clampRow s.rows row)

theorem one_le_byte_toNat {b : Byte} : 1 ≤ b.toNat ↔ b ≠ 0 :=
  Nat.one_le_iff_ne_zero.trans (BitVec.toNat_ne_iff_ne (y := 0))

theorem cursorAddress_eq {s : State} {col : Byte} (hcol : col ≠ 0) (row : Byte) :
    cursorAddress s row col = cursorTarget s row col := by
  have := one_le_byte_toNat.2 hcol
  simp only [cursorAddress, cursorTarget]
  omega

theorem cursorRefused_iff {s : State} {row col : Byte} :
    cursorRefused s row col = true ↔ col = 0 ∨ cursorTarget s row col > s.F.ddramMax.toNat := by
  by_cases hcol : col = 0
  · simp [cursorRefused, hcol]
  · simp [cursorRefused, cursorAddress_eq hcol]

theorem cursorCommand_eq {s : State} {col : Byte} (hcol : col ≠ 0) (row : Byte) :
    cursorCommand s row col = s.F.cmdDDRAM ||| BitVec.ofNat 8 (cursorTarget s row col) := by
  rw [cursorCommand, cursorAddress_eq hcol, BitVec.ofInt_natCast]

/-! ## The requests -/

theorem exec_writeChar (ch : Byte) (s : State) :
    exec (.writeChar ch) s = .next (accepted (.writeChar ch) (dat s.enc ch) s) := accept_eq ..

theorem exec_clear (s : State) : exec .clear s = .next (accepted .clear (clearScript s.enc) s) := accept_eq ..

theorem exec_home (s : State) : exec .home s = .next (accepted .home (homeScript s.enc) s) := accept_eq ..

/-- R154, R235: column 0 and an address past the DDRAM maximum are refused. -/
theorem exec_cursorMove_refused {s : State} {row col : Byte} (h : col = 0 ∨ cursorTarget s row col > s.F.ddramMax.toNat) :
    exec (.cursorMove row col) s = .next (refused (.request (.cursorMove row col)) 0x04 .badOperand s) :=
  if_pos (cursorRefused_iff.2 h)

/-- R154: any other operands send the set-DDRAM command. -/
theorem exec_cursorMove_accepted {s : State} {row col : Byte} (hcol : col ≠ 0)
    (hmax : cursorTarget s row col ≤ s.F.ddramMax.toNat) :
    exec (.cursorMove row col) s = .next (accepted (.cursorMove row col)
      (cmd s.enc (s.F.cmdDDRAM ||| BitVec.ofNat 8 (cursorTarget s row col))) s) := by
  rw [← cursorCommand_eq hcol]
  have notRefused : ¬cursorRefused s row col = true := fun h =>
    (cursorRefused_iff.1 h).elim hcol (not_lt.2 hmax)
  exact if_neg notRefused

end Sys2Proof.Machine

namespace Sys2Proof.Safety

open Sys2Proof.Machine

/-! ## The statements about text and cursor -/

/-- Settles O32: the two clauses are the two cases of `cursorRefused`, and the table has an entry for every clamped row. -/
theorem cursorMoveSetsAddressOrIsRefused : Obligations.CursorMoveSetsAddressOrIsRefused := by
  intro s row col hn hn'
  refine ⟨rfl, rowOffset s.family s.rows (clampRow s.rows row), ?_, exec_cursorMove_refused,
    fun ⟨hcol, hmax⟩ => exec_cursorMove_accepted hcol hmax⟩
  rw [← rowOffsets_eq_ite]
  exact rowOffsets_clampRow hn hn' s.family row

/-- Settles O33: both rows clamp to the row count, so both have the same address, the only thing the row decides. -/
theorem rowsPastTheLastClamp : Obligations.RowsPastTheLastClamp := by
  intro s t u row col hn hn' hrow ht hu
  have last : clampRow s.rows (BitVec.ofNat 8 s.rows) = s.rows :=
    clampRow_past_last (by rw [BitVec.toNat_ofNat]; omega)
  have target : cursorTarget s row col = col.toNat - 1 + rowOffset s.family s.rows s.rows := by
    rw [cursorTarget, clampRow_past_last hrow.le]
  have target' : cursorTarget s (BitVec.ofNat 8 s.rows) col = cursorTarget s row col := by
    rw [target, cursorTarget, last]
  rw [min_eq_right hrow.le, one_le_byte_toNat, ← target]
  by_cases h : col = 0 ∨ cursorTarget s row col > s.F.ddramMax.toNat
  · cases (exec_cursorMove_refused h).symm.trans ht
    cases (exec_cursorMove_refused (target'.symm ▸ h)).symm.trans hu
    exact ⟨rfl, rfl, rfl, rfl, fun hcol hmax => absurd h (not_or.2 ⟨hcol, not_lt.2 hmax⟩)⟩
  · obtain ⟨hcol, hmax⟩ : col ≠ 0 ∧ cursorTarget s row col ≤ s.F.ddramMax.toNat := by rwa [not_or, not_lt] at h
    cases (exec_cursorMove_accepted hcol hmax).symm.trans ht
    cases (exec_cursorMove_accepted hcol (target'.trans_le hmax)).symm.trans hu
    exact ⟨by simp only [accepted, target'], rfl, rfl, rfl, fun _ _ => rfl⟩

/-- Settles O29. -/
theorem writeCharSendsItsByte : Obligations.WriteCharSendsItsByte := fun s ch => ⟨rfl, exec_writeChar ch s⟩

/-- Settles O30. -/
theorem clearSendsCommandAndWaits : Obligations.ClearSendsCommandAndWaits := ⟨rfl, exec_clear⟩

/-- Settles O31: row 1 has offset 0 in every table, so CURSOR_MOVE 1, 1 has address 0, which is always in range. -/
theorem homeIsCursorMoveToOrigin : Obligations.HomeIsCursorMoveToOrigin := by
  refine ⟨rfl, fun s hn _ => ⟨exec_home s, ?_⟩⟩
  have first : clampRow s.rows 1 = 1 := min_eq_left hn
  have origin : cursorTarget s 1 1 = 0 := by rw [cursorTarget, first, rowOffset_first]; rfl
  have inRange : cursorTarget s 1 1 ≤ s.F.ddramMax.toNat := origin.trans_le (Nat.zero_le _)
  rw [exec_cursorMove_accepted (by decide) inRange, origin]
  rfl

end Sys2Proof.Safety
end

section
/-! PROOFS. Register operations (spec/42_register_ops.md R170 to R187): the laws of flag writes, what each operation is
accepted with, and the frame of every request. -/

namespace Sys2Proof.Machine

open Sys2Proof.Safety

/-! ## Laws of flag writes (R170, R186) -/

/-- A flag write bit by bit: the written level under the mask, the old bit elsewhere. -/
theorem getElem_setFlag (v m : Byte) (on : Bool) {k : Nat} (hk : k < 8) :
    (setFlag v m on)[k] = if m[k] then on else v[k] := by
  cases on <;> cases hm : m[k] <;> simp [setFlag, hm]

/-- Of two writes of one flag the last decides. -/
theorem setFlag_setFlag_same (v m : Byte) (a b : Bool) : setFlag (setFlag v m a) m b = setFlag v m b := by
  refine BitVec.eq_of_getElem_eq fun k hk => ?_
  simp only [getElem_setFlag]
  split <;> rfl

/-- Writes of flags apart from each other commute. -/
theorem setFlag_comm {m n : Byte} (v : Byte) (a b : Bool) (h : m &&& n = 0) :
    setFlag (setFlag v n b) m a = setFlag (setFlag v m a) n b := by
  refine BitVec.eq_of_getElem_eq fun k hk => ?_
  have apart : (m[k] && n[k]) = false := by
    rw [← BitVec.getElem_and, h]
    exact BitVec.getElem_zero hk
  simp only [getElem_setFlag]
  cases hm : m[k] with
  | false => simp
  | true => simp [show n[k] = false by simpa [hm] using apart]

/-- Clearing a flag changes nothing exactly when the flag was clear. -/
theorem setFlag_false_eq_self_iff {v m : Byte} : setFlag v m false = v ↔ v &&& m = 0 := by
  constructor
  · intro h
    rw [← h]
    exact setFlag_and_self v m false
  · intro h
    exact and_eq_self_of_within (by rw [BitVec.not_not, h])

/-! ## An operation as a flag write of a register -/

/-- The operation is a flag write of the register `r`, and keeps the family's parameters. -/
def FlagWrite (r : State → Byte) (op : Instr × (FamilyParams → Byte) × Bool) : Prop :=
  ∀ s : State, r (after op.1 s) = setFlag (r s) (op.2.1 s.F) op.2.2 ∧ (after op.1 s).F = s.F

theorem after_eq {i : Instr} {s t : State} (h : exec i s = .next t) : after i s = t := by rw [after, h]

theorem exec_dcOp_accepted {op : Instr × (FamilyParams → Byte) × Bool} (h : op ∈ dcOps) (s : State) :
    exec op.1 s = .next (accepted op.1 (cmd s.enc (s.F.cmdDC ||| setFlag s.DC (op.2.1 s.F) op.2.2))
      { s with DC := setFlag s.DC (op.2.1 s.F) op.2.2 }) :=
  (exec_dcOp h s).trans (regSetDC_eq ..)

theorem exec_emOp_accepted {op : Instr × (FamilyParams → Byte) × Bool} (h : op ∈ emOps) (s : State) :
    exec op.1 s = .next (accepted op.1 (cmd s.enc (s.F.cmdEM ||| setFlag s.EM (op.2.1 s.F) op.2.2))
      { s with EM := setFlag s.EM (op.2.1 s.F) op.2.2 }) :=
  (exec_emOp h s).trans (regSetEM_eq ..)

theorem dcOp_flagWrite {op : Instr × (FamilyParams → Byte) × Bool} (h : op ∈ dcOps) : FlagWrite State.DC op := fun s => by
  rw [after_eq (exec_dcOp_accepted h s)]
  exact ⟨rfl, rfl⟩

theorem emOp_flagWrite {op : Instr × (FamilyParams → Byte) × Bool} (h : op ∈ emOps) : FlagWrite State.EM op := fun s => by
  rw [after_eq (exec_emOp_accepted h s)]
  exact ⟨rfl, rfl⟩

/-- Two operations in a row are two flag writes with the masks of the first state. -/
theorem FlagWrite.after_after {r : State → Byte} {a b : Instr × (FamilyParams → Byte) × Bool} (ha : FlagWrite r a)
    (hb : FlagWrite r b) (s : State) :
    r (after b.1 (after a.1 s)) = setFlag (setFlag (r s) (a.2.1 s.F) a.2.2) (b.2.1 s.F) b.2.2 := by
  obtain ⟨first, keeps⟩ := ha s
  rw [(hb _).1, first, keeps]

/-- R186: the second of two equal writes changes nothing, and clearing a flag after another write of it leaves it clear and
restores the register exactly when the flag was clear. -/
theorem FlagWrite.repeat_and_clear_laws {r : State → Byte} {on off : Instr × (FamilyParams → Byte) × Bool} (hon : FlagWrite r on)
    (hoff : FlagWrite r off) {s : State} (clears : off.2.2 = false)
    (same : on.2.1 s.F = off.2.1 s.F) :
    r (after on.1 (after on.1 s)) = r (after on.1 s)
      ∧ r (after off.1 (after on.1 s)) &&& on.2.1 s.F = 0
      ∧ (r (after off.1 (after on.1 s)) = r s ↔ r s &&& on.2.1 s.F = 0) := by
  have cleared : r (after off.1 (after on.1 s)) = setFlag (r s) (on.2.1 s.F) false := by
    rw [hon.after_after hoff, ← same, clears, setFlag_setFlag_same]
  refine ⟨?_, ?_, ?_⟩
  · rw [hon.after_after hon, setFlag_setFlag_same, (hon s).1]
  · rw [cleared]
    exact setFlag_and_self _ _ false
  · rw [cleared]
    exact setFlag_false_eq_self_iff

/-- R186 as 90_conflicts.md C2 corrects it: operations on flags apart from each other commute. -/
theorem FlagWrite.comm {r : State → Byte} {a b : Instr × (FamilyParams → Byte) × Bool} (ha : FlagWrite r a)
    (hb : FlagWrite r b) {s : State} (apart : a.2.1 s.F &&& b.2.1 s.F = 0) :
    r (after a.1 (after b.1 s)) = r (after b.1 (after a.1 s)) := by
  rw [hb.after_after ha, ha.after_after hb, setFlag_comm _ _ _ apart]

/-- R8: different flags of one register are single bits, so they are apart from each other. -/
theorem dcOps_flags_apart {a b : Instr × (FamilyParams → Byte) × Bool} (ha : a ∈ dcOps) (hb : b ∈ dcOps) {s : State}
    (h : a.2.1 s.F ≠ b.2.1 s.F) : a.2.1 s.F &&& b.2.1 s.F = 0 :=
  have bits := (WfParams_flag_bits s.params s.family).1
  oneBit_disjoint (bits _ (dcOp_flag_mem ha s.F)) (bits _ (dcOp_flag_mem hb s.F)) h

theorem emOps_flags_apart {a b : Instr × (FamilyParams → Byte) × Bool} (ha : a ∈ emOps) (hb : b ∈ emOps) {s : State}
    (h : a.2.1 s.F ≠ b.2.1 s.F) : a.2.1 s.F &&& b.2.1 s.F = 0 :=
  have bits := (WfParams_flag_bits s.params s.family).2
  oneBit_disjoint (bits _ (emOp_flag_mem ha s.F)) (bits _ (emOp_flag_mem hb s.F)) h

/-! ## The shift commands (R181) -/

theorem shiftCommand_display_left (s : State) : shiftCommand s true false = s.F.cmdShift ||| s.F.shDisplay :=
  BitVec.or_zero

theorem shiftCommand_display_right (s : State) :
    shiftCommand s true true = s.F.cmdShift ||| s.F.shDisplay ||| s.F.shRight := rfl

theorem shiftCommand_cursor_left (s : State) : shiftCommand s false false = s.F.cmdShift :=
  BitVec.or_zero.trans BitVec.or_zero

theorem shiftCommand_cursor_right (s : State) : shiftCommand s false true = s.F.cmdShift ||| s.F.shRight :=
  congrArg (· ||| s.F.shRight) BitVec.or_zero

/-! ## The frame of a request -/

/-- No request touches more than the shadows, the phase and the sequencer with its response. -/
theorem exec_frame {i : Instr} {s t : State} (h : exec i s = .next t) :
    t = { s with EM := t.EM, DC := t.DC, BL := t.BL, phase := t.phase, cur := t.cur, script := t.script, pos := t.pos
                 issued := t.issued, rspOut := t.rspOut } := by
  rcases exec_cases i s with ⟨code, he⟩ | ⟨s', sc, he, hs⟩ <;> cases he.symm.trans h
  · rfl
  · rw [hs.rest]
    rfl

theorem backlightOp_shadows {i : Instr} {on : Bool} {s t : State} (h : backlightOp i on s = .next t) :
    t.EM = s.EM ∧ t.DC = s.DC := by
  by_cases hf : s.family = .nibble
  · cases (backlightOp_nibble i on hf).symm.trans h
    exact ⟨rfl, rfl⟩
  · cases (whenFamily_other _ hf).symm.trans h
    exact ⟨rfl, rfl⟩

theorem extendedOp_shadows {i : Instr} {sel v : Byte} {s t : State} (h : extendedOp i sel v s = .next t) :
    t.EM = s.EM ∧ t.DC = s.DC ∧ t.BL = s.BL := by
  by_cases hf : s.family = .byteMode
  · cases (extendedOp_byteMode i sel v hf).symm.trans h
    exact ⟨rfl, rfl, rfl⟩
  · cases (whenFamily_other _ hf).symm.trans h
    exact ⟨rfl, rfl, rfl⟩

theorem execCursorMove_shadows {row col : Byte} {s t : State} (h : execCursorMove row col s = .next t) :
    t.EM = s.EM ∧ t.DC = s.DC ∧ t.BL = s.BL := by
  unfold execCursorMove at h
  split at h <;> cases h <;> exact ⟨rfl, rfl, rfl⟩

/-- Which requests may write each shadow register and the backlight bit (R170, R187, R201 to R203). -/
theorem exec_shadow_writers {i : Instr} {s t : State} (h : exec i s = .next t) :
    (i ∉ emOps.map Prod.fst → t.EM = s.EM) ∧ (i ∉ dcOps.map Prod.fst → t.DC = s.DC)
      ∧ (i ∉ [.backlightOn, .backlightOff] → t.BL = s.BL) := by
  cases i with
  | displayOn | displayOff | cursorOn | cursorOff | blinkOn | blinkOff =>
    cases h
    exact ⟨fun _ => rfl, fun other => absurd (by simp [dcOps]) other, fun _ => rfl⟩
  | displayLtr | displayRtl | displayShiftOn | displayShiftOff =>
    cases h
    exact ⟨fun other => absurd (by simp [emOps]) other, fun _ => rfl, fun _ => rfl⟩
  | backlightOn | backlightOff =>
    obtain ⟨em, dc⟩ := backlightOp_shadows h
    exact ⟨fun _ => em, fun _ => dc, fun other => absurd (by simp) other⟩
  | setBrightness | fadeOff | fadeOnce | fadeBlink =>
    obtain ⟨em, dc, bl⟩ := extendedOp_shadows h
    exact ⟨fun _ => em, fun _ => dc, fun _ => bl⟩
  | cursorMove row col =>
    obtain ⟨em, dc, bl⟩ := execCursorMove_shadows h
    exact ⟨fun _ => em, fun _ => dc, fun _ => bl⟩
  | writeChar | clear | home | createChar | displayShiftLeft | displayShiftRight | cursorShiftLeft | cursorShiftRight =>
    cases h
    exact ⟨fun _ => rfl, fun _ => rfl, fun _ => rfl⟩

end Sys2Proof.Machine

namespace Sys2Proof.Safety

open Sys2Proof.Machine

/-! ## The statements about register operations -/

/-- Settles O37: the operations are flag writes, of which the last of one flag decides, and those of flags apart commute. -/
theorem shadowFlagLaws : Obligations.ShadowFlagLaws :=
  ⟨fun _ hon _ hoff _ _ => (dcOp_flagWrite hon).repeat_and_clear_laws (dcOp_flagWrite hoff),
    fun _ ha _ hb _ hne => (dcOp_flagWrite ha).comm (dcOp_flagWrite hb) (dcOps_flags_apart ha hb hne),
    fun _ hon _ hoff _ _ => (emOp_flagWrite hon).repeat_and_clear_laws (emOp_flagWrite hoff),
    fun _ ha _ hb _ hne => (emOp_flagWrite ha).comm (emOp_flagWrite hb) (emOps_flags_apart ha hb hne)⟩

/-- Settles O42: the frame leaves only the shadows to name, each with its own writers. -/
theorem requestFrame : Obligations.RequestFrame := by
  intro i s t h
  have writers := exec_shadow_writers h
  rw [exec_frame h]
  exact ⟨rfl, rfl, rfl, rfl, rfl, rfl, rfl, rfl, rfl, rfl, rfl, rfl, rfl, rfl, rfl, rfl, rfl, rfl, writers⟩

/-- Settles O34: each operation of the list is the shared flag write of `S.DC`. -/
theorem displayControlOpsSendTheRegister : Obligations.DisplayControlOpsSendTheRegister :=
  ⟨rfl, fun _ hop s => exec_dcOp_accepted hop s⟩

/-- Settles O35: each operation of the list is the shared flag write of `S.EM`. -/
theorem entryModeOpsSendTheRegister : Obligations.EntryModeOpsSendTheRegister :=
  ⟨rfl, fun _ hop s => exec_emOp_accepted hop s⟩

/-- Settles O38: each request is the shared shift operation, whose command has the bits of its class and direction. -/
theorem shiftOpsSendClassAndDirection : Obligations.ShiftOpsSendClassAndDirection := by
  refine ⟨rfl, fun s => ?_⟩
  rw [← shiftCommand_display_right, ← shiftCommand_display_left, ← shiftCommand_cursor_right]
  refine ⟨shiftOp_eq .., shiftOp_eq .., ?_, shiftOp_eq ..⟩
  rw [← shiftCommand_cursor_left]
  exact shiftOp_eq ..

end Sys2Proof.Safety
end

section
/-! PROOFS. Custom glyphs, backlight and extended-mode operations (spec/43_glyph_backlight_extended.md R200 to R207): the
set-CGRAM command and the glyph rows, the envelope's bytes, and what each request is accepted with or refused for. -/

namespace Sys2Proof.Machine

open Sys2Proof.Safety

/-! ## CREATE_CHAR (R200) -/

theorem slotIndex_toNat (slot : Byte) : (slotIndex slot).toNat = slot.toNat % 8 := by
  rw [slotIndex, BitVec.toNat_and]
  exact Nat.and_two_pow_sub_one_eq_mod slot.toNat 3

/-- The CGRAM address of a slot is 8 times the slot it aliases, and does not wrap. -/
theorem slotIndex_shiftLeft (slot : Byte) : slotIndex slot <<< 3 = BitVec.ofNat 8 (8 * (slot.toNat % 8)) := by
  refine BitVec.eq_of_toNat_eq ?_
  rw [BitVec.toNat_shiftLeft, slotIndex_toNat, Nat.shiftLeft_eq, Nat.mul_comm, BitVec.toNat_ofNat]

theorem cgramCommand_eq (s : State) (slot : Byte) :
    cgramCommand s slot = s.F.cmdCGRAM ||| BitVec.ofNat 8 (8 * (slot.toNat % 8)) := by
  rw [cgramCommand, slotIndex_shiftLeft]

/-- R8 allows 7 or 8 glyph rows, so rows 0 to 6 are always sent and row 7 is the one to decide. -/
theorem glyphRowsSent_eq (s : State) (g : Glyph) :
    glyphRowsSent s g = [g.g0, g.g1, g.g2, g.g3, g.g4, g.g5, g.g6] ++ if s.P.glyphRows = 8 then [g.g7] else [] := by
  have rows : s.P.glyphRows = 7 ∨ s.P.glyphRows = 8 := WfParams_glyphRows s.params
  rcases rows with h | h <;> rw [glyphRowsSent, h] <;> rfl

theorem exec_createChar (slot : Byte) (g : Glyph) (s : State) :
    exec (.createChar slot g) s = .next (accepted (.createChar slot g)
      (cmd s.enc (cgramCommand s slot) ++ (glyphRowsSent s g).flatMap (dat s.enc)) s) := accept_eq ..

/-! ## The envelope (R203 to R207) -/

/-- R203, R125: in the byte-mode family each byte of the envelope is one command write with its settle wait. -/
theorem envelopeScript_byteMode {s : State} (h : s.family = .byteMode) (sel v : Byte) :
    envelopeScript s sel v
      = (envelopeBytes s sel v).flatMap fun b => [.wbr s.addr s.P.modeCmd b, .wait s.P.tSettle] := by
  have command : cmd s.enc = fun b => [.wbr s.addr s.P.modeCmd b, .wait s.P.tSettle] :=
    funext fun b => cmd_byteMode h b
  rw [envelopeScript, command]

/-- An extended operation as accepted, with the envelope's ten writes written out. -/
theorem extendedOp_accepted (i : Instr) (sel v : Byte) {s : State} (h : s.family = .byteMode) :
    extendedOp i sel v s = .next (accepted i
      ((envelopeBytes s sel v).flatMap fun b => [.wbr s.addr s.P.modeCmd b, .wait s.P.tSettle]) s) := by
  rw [extendedOp_byteMode i sel v h, envelopeScript_byteMode h]

/-- R205: the rate field of FADE_OFF adds nothing to the mode code. -/
theorem fadeValue_zero (mode : Byte) : fadeValue mode 0x00 = mode := BitVec.or_zero

theorem execFadeOff_eq (s : State) : execFadeOff s = extendedOp .fadeOff s.P.selFade s.P.fadeModeOff s := by
  rw [execFadeOff, fadeValue_zero]

/-! ## What the other family answers (R201 to R203, R234) -/

theorem backlightOp_byteMode (i : Instr) (on : Bool) {s : State} (h : s.family = .byteMode) :
    backlightOp i on s = .next (refused (.request i) i.opcode .unsupported s) :=
  whenFamily_other _ (by rw [h]; decide)

theorem extendedOp_nibble (i : Instr) (sel v : Byte) {s : State} (h : s.family = .nibble) :
    extendedOp i sel v s = .next (refused (.request i) i.opcode .unsupported s) :=
  whenFamily_other _ (by rw [h]; decide)

end Sys2Proof.Machine

namespace Sys2Proof.Safety

open Sys2Proof.Machine

/-! ## The statements about glyphs, backlight and extended mode -/

/-- Settles O39: the slot's CGRAM address is 8 times the slot it aliases, and 7 or 8 rows are all the parameters allow. -/
theorem createCharSendsSlotAndRows : Obligations.CreateCharSendsSlotAndRows := by
  refine fun s slot g => ⟨rfl, WfParams_glyphRows s.params, ?_⟩
  rw [exec_createChar, cgramCommand_eq, glyphRowsSent_eq]
  split <;> simp only [List.flatMap_append, List.flatMap_cons, List.flatMap_nil, List.append_assoc, List.append_nil]

/-- Settles O40: both requests are the shared backlight operation, of the nibble family only. -/
theorem backlightWritesItsBitAlone : Obligations.BacklightWritesItsBitAlone :=
  ⟨rfl, rfl, fun _ =>
    ⟨fun h => ⟨backlightOp_nibble .backlightOn true h, backlightOp_nibble .backlightOff false h⟩,
      fun h => ⟨backlightOp_byteMode .backlightOn true h, backlightOp_byteMode .backlightOff false h⟩⟩⟩

/-- Settles O41: each request is the shared extended operation, of the byte-mode family only, with its selector and value. -/
theorem extendedOpsSendTheEnvelope : Obligations.ExtendedOpsSendTheEnvelope := by
  refine ⟨fun _ => ⟨rfl, rfl, rfl, rfl⟩, fun s v => ⟨fun h => ?_, fun h => ?_⟩⟩
  · exact ⟨extendedOp_accepted (.setBrightness v) _ _ h,
      (execFadeOff_eq s).trans (extendedOp_accepted .fadeOff _ _ h),
      extendedOp_accepted (.fadeOnce v) _ _ h, extendedOp_accepted (.fadeBlink v) _ _ h⟩
  · exact ⟨extendedOp_nibble (.setBrightness v) _ _ h, extendedOp_nibble .fadeOff _ _ h,
      extendedOp_nibble (.fadeOnce v) _ _ h, extendedOp_nibble (.fadeBlink v) _ _ h⟩

end Sys2Proof.Safety
end

section
/-! PROOFS. Errors and whole runs (spec/60_exceptions.md R230 to R251): every step answers, what a refusal is caused by, what a
completion leads to under each policy, and the run of a script to its end. -/

namespace Sys2Proof.Machine

open Sys2Proof.Safety

/-! ## Every step answers (R242, R243, R251) -/

theorem exec_answers (i : Instr) (s : State) : ∃ t, exec i s = .next t := by
  rcases exec_cases i s with ⟨code, h⟩ | ⟨s', sc, h, -⟩ <;> exact ⟨_, h⟩

theorem receive_answers (bs : List Byte) (s : State) : ∃ t, receive bs s = .next t := by
  cases hd : decode bs with
  | ok i rest => exact receive_complete hd s ▸ exec_answers i _
  | illegal op rest => exact ⟨_, receive_illegal hd s⟩
  | incomplete => exact ⟨_, receive_incomplete hd s⟩

theorem acceptByte_answers (s : State) : ∃ t, acceptByte s = .next t := by
  unfold acceptByte
  split
  · exact ⟨s, rfl⟩
  · exact receive_answers _ _

theorem phaseStep_answers (s : State) : ∃ t, phaseStep s = .next t := by
  unfold phaseStep
  split
  · exact ⟨_, rfl⟩
  · split
    case h_3 => exact acceptByte_answers s
    all_goals exact ⟨_, rfl⟩

/-! ## Hangs (R251) -/

theorem step_hung {s : State} (hq : PinsQuiet s) (h : HungOnAction s ∨ HungOnRequest s) : step s = .next s := by
  rcases h with ⟨hrun, hi, hpos, hin⟩ | ⟨hp, -, hr⟩
  · rw [step_running hq hrun, runScript_await (List.getElem?_eq_getElem hpos) hi, awaitCompletion, hin]
  · rw [step_ready hq hp, acceptByte, hr]

/-! ## What a refusal is caused by (R234, R235) -/

/-- R234, as a table of families and opcodes. -/
theorem supported_eq_false_iff (i : Instr) (f : Family) :
    i.supported f = false ↔
      (f = .byteMode ∧ (i = .backlightOn ∨ i = .backlightOff))
        ∨ (f = .nibble ∧ (i.opcode = 0x60 ∨ i.opcode = 0x70 ∨ i.opcode = 0x71 ∨ i.opcode = 0x72)) := by
  cases f
  · cases i <;> simp [Instr.supported, Instr.opcode]
  · cases i <;> simp [Instr.supported]

theorem exec_unsupported {i : Instr} {s : State} (h : i.supported s.family = false) :
    exec i s = .next (refused (.request i) i.opcode .unsupported s) := by
  rcases (supported_eq_false_iff i s.family).1 h with ⟨hf, rfl | rfl⟩ | ⟨hf, hop⟩
  · exact backlightOp_byteMode _ _ hf
  · exact backlightOp_byteMode _ _ hf
  · cases i with
    | setBrightness | fadeOff | fadeOnce | fadeBlink => exact extendedOp_nibble _ _ _ hf
    | _ => simp [Instr.opcode] at hop

/-- Of the requests a family supports only CURSOR_MOVE can be refused, for its operands (R235). -/
theorem exec_supported_response {i : Instr} {s t : State} (hi : i.supported s.family = true) (h : exec i s = .next t) :
    t.rspOut = none ∨ (t = refused (.request i) 0x04 .badOperand s ∧ ∃ row col, i = .cursorMove row col) := by
  cases i with
  | cursorMove row col =>
    by_cases hr : col = 0 ∨ cursorTarget s row col > s.F.ddramMax.toNat
    · cases (exec_cursorMove_refused hr).symm.trans h
      exact .inr ⟨rfl, row, col, rfl⟩
    · obtain ⟨hcol, hmax⟩ := not_or.1 hr
      cases (exec_cursorMove_accepted hcol (not_lt.1 hmax)).symm.trans h
      exact .inl rfl
  | backlightOn | backlightOff =>
    have hf : s.family = .nibble := by cases hf : s.family <;> simp_all [Instr.supported]
    cases (backlightOp_nibble _ _ hf).symm.trans h
    exact .inl rfl
  | setBrightness | fadeOff | fadeOnce | fadeBlink =>
    have hf : s.family = .byteMode := by cases hf : s.family <;> simp_all [Instr.supported]
    cases (extendedOp_byteMode _ _ _ hf).symm.trans h
    exact .inl rfl
  | _ => cases h; exact .inl rfl

/-! ## A completion under each policy (R236 to R240) -/

theorem completeAction_wait (t : Nat) (failed : Bool) (s : State) :
    completeAction (.wait t) failed s = advance s := by cases failed <;> rfl

theorem completeAction_swallow (a : Action) (failed : Bool) {s : State} (h : s.policy = .swallow) :
    completeAction a failed s = advance s := by
  rcases completeAction_cases a failed s with hc | ⟨hp, -⟩ | ⟨hp, -⟩
  · exact hc
  · simp [h] at hp
  · simp [h] at hp

theorem busError_log (a : Action) {s : State} (h : s.policy = .log) :
    busError a s = advance (s.emitLog ⟨curOpcode s, s.pos, a⟩) := by simp [busError, h]

theorem busError_propagate (a : Action) {s : State} (h : s.policy = .propagate) : busError a s = abortScript s := by
  simp [busError, h]

/-- An `err` is a failure of the writes alone (R236). -/
theorem fails_err (a : Action) : fails a .err = a.isWrite := Bool.and_true _

theorem finishScript_emitLog (s : State) (r : LogRecord) : finishScript (s.emitLog r) = (finishScript s).emitLog r := by
  unfold finishScript
  rw [State.emitLog_cur]
  split <;> rfl

/-- Nothing a script does depends on what was logged. -/
theorem advance_emitLog (s : State) (r : LogRecord) : advance (s.emitLog r) = (advance s).emitLog r := by
  by_cases h : s.pos + 1 < s.script.length
  · rw [advance_inside h, advance_inside (s := s.emitLog r) h]
    rfl
  · rw [advance_last h, advance_last (s := s.emitLog r) h]
    exact finishScript_emitLog { s with pos := s.pos + 1, issued := false } r

theorem curOpcode_request {s : State} {i : Instr} (h : s.cur = some (.request i)) : curOpcode s = i.opcode := by
  rw [curOpcode, h]; rfl

theorem curOpcode_initSequence {s : State} (h : s.cur = some .initSequence) : curOpcode s = 0x00 := by
  rw [curOpcode, h]; rfl

theorem finishScript_initSequence {s : State} (h : s.cur = some .initSequence) : finishScript s = s.idle := by
  rw [finishScript, h]

theorem abortScript_request {s : State} {i : Instr} (h : s.cur = some (.request i)) :
    abortScript s = { s with issued := false }.respond i.opcode .busError := by
  rcases abortScript_cases s with ⟨j, hc, ha⟩ | ⟨hc, -⟩
  · cases hc.symm.trans h
    exact ha
  · exact absurd h (hc i)

theorem abortScript_initSequence {s : State} (h : s.cur = some .initSequence) :
    abortScript s = { s with phase := .initFailed, issued := false } := by
  rw [abortScript, h]

/-- The step of a running script that takes a completion for its outstanding action (R121). -/
theorem step_completion {s : State} {a : Action} {c : Completion} {rest : List Completion} (hq : PinsQuiet s)
    (hrun : Running s) (hi : s.issued = true) (ha : s.script[s.pos]? = some a) (hin : s.actIn = c :: rest)
    (hc : c ≠ .stale) : step s = .next (completeAction a (c == .err) { s with actIn := rest }) := by
  rw [step_running hq hrun, runScript_await ha hi, awaitCompletion, hin]
  cases c with
  | ok | err => rfl
  | stale => exact absurd rfl hc

/-- A completion whose failure the policy does not act on leads where a success leads. -/
theorem step_err_eq_step_ok {s : State} {a : Action} (rest : List Completion) (hq : PinsQuiet s) (hrun : Running s)
    (hi : s.issued = true) (ha : s.script[s.pos]? = some a)
    (h : completeAction a true { s with actIn := rest } = advance { s with actIn := rest }) :
    step { s with actIn := .err :: rest } = step { s with actIn := .ok :: rest } := by
  rw [step_completion (s := { s with actIn := .err :: rest }) (c := .err) hq hrun hi ha rfl (by simp),
    step_completion (s := { s with actIn := .ok :: rest }) (c := .ok) hq hrun hi ha rfl (by simp)]
  exact congrArg _ h

end Sys2Proof.Machine

namespace Sys2Proof.Safety

open Sys2Proof.Machine

/-! ## The run of a script under the policies -/

/-- The records a policy emits for the completions of actions from a position on (R237 to R239). -/
def policyRecords (p : Policy) (op : Byte) (pos : Nat) (as : List Action) (cs : List Completion) : List LogRecord :=
  if p = .log then failureRecords op pos as cs else []

theorem policyRecords_cons (p : Policy) (op : Byte) (pos : Nat) (a : Action) (as : List Action) (c : Completion)
    (cs : List Completion) :
    policyRecords p op pos (a :: as) (c :: cs)
      = policyRecords p op pos [a] [c] ++ policyRecords p op (pos + 1) as cs := by
  unfold policyRecords
  split
  · simp only [failureRecords, List.append_nil]
  · rfl

theorem policyRecords_of_ne_log {p : Policy} (h : p ≠ .log) (op : Byte) (pos : Nat) (as : List Action)
    (cs : List Completion) : policyRecords p op pos as cs = [] := if_neg h

/-- Without PROPAGATE every completion lets the script go on, with the policy's record (R237, R238). -/
theorem completeAction_goes_on (a : Action) (c : Completion) {s : State} (hp : s.policy ≠ .propagate) :
    completeAction a (c == .err) s
      = advance { s with logs := s.logs ++ policyRecords s.policy (curOpcode s) s.pos [a] [c] } := by
  have policies : s.policy = .swallow ∨ s.policy = .log := by cases h : s.policy <;> simp_all
  rcases policies with h | h
  · rw [completeAction_swallow a _ h, policyRecords_of_ne_log (by simp [h]), List.append_nil]
  · have record : policyRecords s.policy (curOpcode s) s.pos [a] [c]
        = if fails a c then [⟨curOpcode s, s.pos, a⟩] else [] := by simp [policyRecords, failureRecords, h]
    rw [record]
    cases hf : fails a c with
    | false => rw [completeAction_success a c s hf, if_neg Bool.false_ne_true, List.append_nil]
    | true => rw [completeAction_failure a c s hf, busError_log a h]; rfl

/-- The action at a position, and the rest of the script behind it. -/
theorem drop_eq_cons {α : Type} {l as : List α} {n : Nat} {a : α} (h : l.drop n = a :: as) :
    l[n]? = some a ∧ l.drop (n + 1) = as ∧ l.length = n + 1 + as.length := by
  have hlen := congrArg List.length h
  simp only [List.length_drop, List.length_cons] at hlen
  exact ⟨by rw [← List.head?_drop, h]; rfl, by rw [← List.tail_drop, h]; rfl, by omega⟩

/-- The rest of a script under SWALLOW or LOG: each action is emitted in two steps, whatever fails, and the script ends
(R237, R238; log entry 7). -/
theorem run_unaborted_script {todo : List Action} (hne : todo ≠ []) {cs more : List Completion} {s : State}
    (hq : PinsQuiet s) (hact : s.actReady = true) (hrun : Running s) (hi : s.issued = false)
    (htodo : s.script.drop s.pos = todo) (hin : s.actIn = cs ++ more) (hlen : cs.length = todo.length)
    (hstale : Completion.stale ∉ cs) (hp : s.policy ≠ .propagate) :
    run (2 * todo.length) s
      = .next (finishScript { s with
          pos := s.script.length, acts := s.acts ++ todo
          logs := s.logs ++ policyRecords s.policy (curOpcode s) s.pos todo cs, actIn := more }) := by
  induction todo generalizing s cs with
  | nil => exact absurd rfl hne
  | cons a todo ih =>
    obtain ⟨c, cs, rfl⟩ := List.exists_cons_of_length_eq_add_one hlen
    obtain ⟨ha, hdrop, hpos⟩ := drop_eq_cons htodo
    have hc : c ≠ .stale := (List.ne_of_not_mem_cons hstale).symm
    let u : State := { s with
      acts := s.acts ++ [a], issued := true, actIn := cs ++ more
      logs := s.logs ++ policyRecords s.policy (curOpcode s) s.pos [a] [c] }
    have htwo : run (2 * (a :: todo).length) s = run (2 * todo.length) (advance u) := by
      rw [List.length_cons, Nat.mul_succ, run_one_action (rest := cs ++ more) hq hact hrun hi ha hin hc,
        completeAction_goes_on a c (s := { s with acts := s.acts ++ [a], issued := true, actIn := cs ++ more }) hp]
      rfl
    rw [htwo, policyRecords_cons]
    cases todo with
    | nil =>
      obtain rfl : cs = [] := List.eq_nil_of_length_eq_zero (Nat.succ.inj hlen)
      rw [advance_last (s := u) (by simp [u, hpos])]
      simp [u, hpos, hi, run_zero, policyRecords, failureRecords]
    | cons b todo =>
      rw [advance_inside (s := u) (by simp [u, hpos]), ih (List.cons_ne_nil _ _)
        (s := { u with pos := s.pos + 1, issued := false }) hq hact hrun rfl hdrop rfl (Nat.succ.inj hlen)
        (List.not_mem_of_not_mem_cons hstale) hp]
      simp [u, hi, curOpcode]

theorem firstFailure_cons_eq_some {a : Action} {as : List Action} {c : Completion} {cs : List Completion} {k : Nat}
    (h : firstFailure (a :: as) (c :: cs) = some k) :
    (fails a c = true ∧ k = 0) ∨ ∃ j, fails a c = false ∧ firstFailure as cs = some j ∧ k = j + 1 := by
  cases hf : fails a c with
  | true => exact .inl ⟨rfl, by simpa [firstFailure, hf, eq_comm] using h⟩
  | false =>
    simp only [firstFailure, hf, Bool.false_eq_true, if_false, Option.map_eq_some_iff] at h
    obtain ⟨j, hj, rfl⟩ := h
    exact .inr ⟨j, rfl, hj, rfl⟩

theorem length_pos_of_firstFailure {as : List Action} {cs : List Completion} {k : Nat} (h : firstFailure as cs = some k) :
    0 < as.length := by
  cases as with
  | nil => simp [firstFailure] at h
  | cons a as => exact Nat.succ_pos _

/-- The rest of a script under PROPAGATE: each action up to the first failed write is emitted in two steps, and that write
aborts the script (R239, R240; log entry 7). -/
theorem run_aborted_script {todo : List Action} {cs more : List Completion} {k : Nat} {s : State}
    (hq : PinsQuiet s) (hact : s.actReady = true) (hrun : Running s) (hi : s.issued = false)
    (htodo : s.script.drop s.pos = todo) (hin : s.actIn = cs ++ more) (hstale : Completion.stale ∉ cs)
    (hp : s.policy = .propagate) (hfail : firstFailure todo cs = some k) :
    run (2 * (k + 1)) s
      = .next (abortScript { s with
          pos := s.pos + k, issued := true, acts := s.acts ++ todo.take (k + 1), actIn := (cs ++ more).drop (k + 1) }) := by
  induction todo generalizing s cs k with
  | nil => simp [firstFailure] at hfail
  | cons a todo ih =>
    cases cs with
    | nil => simp [firstFailure] at hfail
    | cons c cs =>
      obtain ⟨ha, hdrop, hlen⟩ := drop_eq_cons htodo
      have hc : c ≠ .stale := (List.ne_of_not_mem_cons hstale).symm
      let u : State := { s with acts := s.acts ++ [a], issued := true, actIn := cs ++ more }
      have htwo : ∀ m, run (m + 2) s = run m (completeAction a (c == .err) u) :=
        run_one_action hq hact hrun hi ha hin hc
      rw [Nat.mul_succ, htwo]
      rcases firstFailure_cons_eq_some hfail with ⟨hf, rfl⟩ | ⟨j, hf, hj, rfl⟩
      · rw [completeAction_failure a c u hf, busError_propagate a (s := u) hp]
        rfl
      · have hpos := length_pos_of_firstFailure hj
        rw [completeAction_success a c u hf, advance_inside (s := u) (by simp only [u]; omega),
          ih (s := { u with pos := s.pos + 1, issued := false }) hq hact hrun rfl hdrop rfl
            (List.not_mem_of_not_mem_cons hstale) hp hj]
        simp [u, Nat.add_assoc, Nat.add_comm 1]

/-- A whole script none of whose writes is aborted, under every policy (R231, R237 to R239). -/
theorem run_whole_script {cs more : List Completion} {s : State} (hne : s.script ≠ []) (hq : PinsQuiet s)
    (hact : s.actReady = true) (hrun : Running s) (hpos : s.pos = 0) (hi : s.issued = false) (hin : s.actIn = cs ++ more)
    (hlen : cs.length = s.script.length) (hstale : Completion.stale ∉ cs)
    (hgo : s.policy = .propagate → firstFailure s.script cs = none) :
    run (2 * s.script.length) s
      = .next (finishScript { s with
          pos := s.script.length, acts := s.acts ++ s.script
          logs := s.logs ++ policyRecords s.policy (curOpcode s) 0 s.script cs, actIn := more }) := by
  have hdrop : s.script.drop s.pos = s.script := by rw [hpos, List.drop_zero]
  by_cases hp : s.policy = .propagate
  · rw [run_unfailed_script hne hq hact hrun hi hdrop hin ⟨hlen, hstale, hgo hp⟩, policyRecords_of_ne_log (by simp [hp]),
      List.append_nil]
  · rw [run_unaborted_script hne hq hact hrun hi hdrop hin hlen hstale hp, hpos]

/-- A run to the offer of a response ends, one step later, with its acceptance (R6, R231; log entries 10, 21). -/
theorem run_answered {s u : State} {k : Nat} {op : Byte} {code : RspCode} (h : run k s = .next (u.respond op code))
    (hp : u.phase = .busy) (hq : PinsQuiet u) (hready : u.rspReady = true) :
    run (k + 1) s = .next (answered op code u) := by
  rw [run_add h, run_one]
  exact step_response_quiet (s := u.respond op code) hp rfl hq hready

theorem run_finished_request {s u : State} {k : Nat} {i : Instr} (h : run k s = .next (finishScript u))
    (hcur : u.cur = some (.request i)) (hp : u.phase = .busy) (hq : PinsQuiet u) (hready : u.rspReady = true) :
    run (k + 1) s = .next (answered i.opcode .ok u) :=
  run_answered (finishScript_request hcur ▸ h) hp hq hready

theorem run_aborted_request {s u : State} {k : Nat} {i : Instr} (h : run k s = .next (abortScript u))
    (hcur : u.cur = some (.request i)) (hp : u.phase = .busy) (hq : PinsQuiet u) (hready : u.rspReady = true) :
    run (k + 1) s = .next (answered i.opcode .busError u) :=
  run_answered (u := { u with issued := false }) (abortScript_request hcur ▸ h) hp hq hready

/-! ## The statements about errors and whole runs -/

/-- Settles O8: `rst` is always answered, and so is each phase. -/
theorem stepAlwaysAnswers : Obligations.StepAlwaysAnswers := fun s => phaseStep_answers (samplePins s)

/-- Settles O19: a hung block's step changes nothing, and `rst` abandons what is in progress. -/
theorem hangsLastUntilReset : Obligations.HangsLastUntilReset :=
  ⟨fun _ k hq h => run_still (step_hung hq h) k, fun _ _ hr => ⟨_, step_reset hr, rfl, rfl, rfl⟩⟩

/-- Settles O43: the family decides support, and of the supported requests CURSOR_MOVE alone checks an operand. -/
theorem requestErrorsArePrecise : Obligations.RequestErrorsArePrecise := by
  intro i s t h
  refine ⟨fun hi => ?_, fun hi => ?_, supported_eq_false_iff i s.family⟩
  · cases (exec_unsupported hi).symm.trans h
    rfl
  · refine (exec_supported_response hi h).imp_left fun silent => ?_
    cases exec_outcome h with
    | refuses code result => simp [result, refused] at silent
    | accepts s' sc result _ writes script =>
      obtain ⟨EM, DC, BL, rfl⟩ := writes.eq_shadows
      subst result
      exact ⟨rfl, rfl, rfl, rfl, rfl, rfl, script.nonempty⟩

/-- Settles O45. -/
theorem swallowIgnoresBusErrors : Obligations.SwallowIgnoresBusErrors := fun _ rest hq hrun hi hpos hp =>
  step_err_eq_step_ok rest hq hrun hi (List.getElem?_eq_getElem hpos) (completeAction_swallow _ true hp)

/-- Settles O46. -/
theorem waitNeverErrs : Obligations.WaitNeverErrs := fun _ t rest hq hrun hi ha =>
  step_err_eq_step_ok rest hq hrun hi ha (completeAction_wait t true _)

/-- Settles O47: the record is emitted and the script goes on, whatever was logged before. -/
theorem logRecordsTheFailedWrite : Obligations.LogRecordsTheFailedWrite := by
  intro s t u a rest hq hrun hi ha hw hp hok herr
  rw [step_completion (s := { s with actIn := .ok :: rest }) (c := .ok) hq hrun hi ha rfl (by simp)] at hok
  rw [step_completion (s := { s with actIn := .err :: rest }) (c := .err) hq hrun hi ha rfl (by simp)] at herr
  let v : State := { s with actIn := rest }
  have ht : t = advance v := by cases hok; rfl
  have hu : u = (advance v).emitLog ⟨curOpcode s, s.pos, a⟩ := by
    rw [← advance_emitLog]
    cases herr
    exact (completeAction_failure a .err v ((fails_err a).trans hw)).trans (busError_log a hp)
  refine ⟨curOpcode s, ?_, fun i => curOpcode_request, curOpcode_initSequence⟩
  rw [hu, ht, State.emitLog, (advance_portsStill v).logs]

/-- Settles O48: the failed write aborts the script, and what was current decides what the abort leaves. -/
theorem propagateEndsTheScript : Obligations.PropagateEndsTheScript := by
  intro s a rest hq hi ha hw hp hin
  let v : State := { s with actIn := rest }
  have hstep : Running s → step s = .next (abortScript v) := fun hrun => by
    rw [step_completion hq hrun hi ha hin (by simp)]
    rw [completeAction_failure a .err v ((fails_err a).trans hw), busError_propagate a (s := v) hp]
  refine ⟨fun i hphase ho hcur => ?_, fun hphase hcur => ?_⟩
  · have h := hstep (.inr ⟨hphase, ho⟩)
    refine ⟨?_, run_aborted_request ((run_one s).trans h) hcur hphase hq⟩
    rw [h, abortScript_request (s := v) hcur]
    rfl
  · rw [hstep (.inl hphase), abortScript_initSequence (s := v) hcur]

/-- Settles O49: the script runs to its end or to its first failed write, and the response on offer is accepted. -/
theorem acceptedScriptRunsToItsResponse : Obligations.AcceptedScriptRunsToItsResponse := by
  intro s i cs more hq ⟨hact, hrsp⟩ hphase ho hcur hpos hi hne hin hlen hstale n ended
  have hrun : Running s := .inr ⟨hphase, ho⟩
  have whole (hgo : s.policy = .propagate → firstFailure s.script cs = none) :
      run (2 * n + 1) s = .next (ended n .ok (policyRecords s.policy i.opcode 0 s.script cs)) := by
    have script := run_whole_script hne hq hact hrun hpos hi hin hlen hstale hgo
    rw [run_finished_request script hcur hphase hq hrsp, curOpcode_request hcur]
    simp [ended, n, answered, ← hlen]
  refine ⟨fun hp => ?_, fun hp => ?_, fun hp hok => ?_, fun k hp hfail => ?_⟩
  · simpa [hp, policyRecords] using whole (by simp [hp])
  · simpa [hp, policyRecords] using whole (by simp [hp])
  · simpa [hp, policyRecords] using whole fun _ => hok
  · have script := run_aborted_script hq hact hrun hi (by rw [hpos, List.drop_zero]) hin hstale hp hfail
    rw [run_aborted_request script hcur hphase hq hrsp]
    simp [ended, answered]

/-- Settles O50: the script runs to its end or to its first failed write, and nothing is answered. -/
theorem initScriptRunsToReady : Obligations.InitScriptRunsToReady := by
  intro s cs more hq hact hphase hcur hpos hi hne hin hlen hstale n ready
  have hrun : Running s := .inl hphase
  have whole (hgo : s.policy = .propagate → firstFailure s.script cs = none) :
      run (2 * n) s = .next (ready (policyRecords s.policy 0x00 0 s.script cs)) := by
    rw [run_whole_script hne hq hact hrun hpos hi hin hlen hstale hgo, finishScript_initSequence (by exact hcur),
      curOpcode_initSequence hcur]
    simp [ready, State.idle, hi]
  refine ⟨fun hp => ?_, fun hp => ?_, fun hp hok => ?_, fun k hp hfail => ?_⟩
  · simpa [hp, policyRecords] using whole (by simp [hp])
  · simpa [hp, policyRecords] using whole (by simp [hp])
  · simpa [hp, policyRecords] using whole fun _ => hok
  · rw [run_aborted_script hq hact hrun hi (by rw [hpos, List.drop_zero]) hin hstale hp hfail,
      abortScript_initSequence (by exact hcur)]
    simp [hpos, hi]

/-- Settles O17. -/
theorem haltedPhasesWaitForReset : Obligations.HaltedPhasesWaitForReset := fun _ hp hr => step_halted hr hp

end Sys2Proof.Safety
end

section
/-! PROOFS. Reset, straps and the init script (spec/70_reset_and_hazards.md R270 to R291): what `rst` abandons and samples,
the phases that take no request byte, the parts of the init script and its actions under CFG-GK. -/

namespace Sys2Proof.Machine

open Sys2Proof.Safety

/-! ## The straps (R7, R271) -/

/-- Every strap has a legal level (R7). -/
def LegalStraps (c : Straps) : Prop :=
  c.family.toNat ≤ 1 ∧ 1 ≤ c.rows.toNat ∧ c.rows.toNat ≤ 4 ∧ c.policy.toNat ≤ 2

theorem family?_eq (c : Straps) :
    c.family? = if c.family.toNat ≤ 1 then some (if c.family = 0 then .nibble else .byteMode) else none := by
  have levels : ∀ f : BitVec 2, ({ (default : Straps) with family := f }).family?
      = if f.toNat ≤ 1 then some (if f = 0 then .nibble else .byteMode) else none := by decide
  exact levels c.family

theorem policy?_eq (c : Straps) :
    c.policy? = if c.policy.toNat ≤ 2 then
      some (if c.policy = 0 then .swallow else if c.policy = 1 then .log else .propagate) else none := by
  have levels : ∀ p : BitVec 2, ({ (default : Straps) with policy := p }).policy?
      = if p.toNat ≤ 2 then some (if p = 0 then .swallow else if p = 1 then .log else .propagate) else none := by decide
  exact levels c.policy

/-- R271: legal straps are latched as INIT is entered. -/
theorem releaseReset_legal {s : State} (h : LegalStraps s.cfg) :
    releaseReset s = enterInit (if s.cfg.family = 0 then .nibble else .byteMode) s.cfg.rows.toNat
      (if s.cfg.policy = 0 then .swallow else if s.cfg.policy = 1 then .log else .propagate) s := by
  obtain ⟨hfamily, hlow, hhigh, hpolicy⟩ := h
  have hrows : 1 ≤ s.cfg.rows.toNat ∧ s.cfg.rows.toNat ≤ 4 := ⟨hlow, hhigh⟩
  rw [releaseReset, family?_eq, if_pos hfamily, Straps.rows?, if_pos hrows, policy?_eq, if_pos hpolicy]

/-- R271, R241: one strap without a legal level is enough for CONFIG_ERROR. -/
theorem releaseReset_illegal {s : State} (h : ¬LegalStraps s.cfg) : releaseReset s = enterConfigError s := by
  unfold releaseReset
  split
  next f n p hf hn hp =>
    simp only [family?_eq, Straps.rows?, policy?_eq, Option.ite_none_right_eq_some] at hf hn hp
    obtain ⟨hfamily, -⟩ := hf
    obtain ⟨⟨hlow, hhigh⟩, -⟩ := hn
    obtain ⟨hpolicy, -⟩ := hp
    exact absurd ⟨hfamily, hlow, hhigh, hpolicy⟩ h
  next => rfl

/-- Either way out of RESET leaves no byte of a request (R42). -/
theorem releaseReset_rx (s : State) : (releaseReset s).rx = [] := by
  unfold releaseReset
  split <;> rfl

/-! ## Request bytes outside READY (R280) -/

theorem finishScript_rx (s : State) : (finishScript s).rx = s.rx := by
  rcases finishScript_cases s with ⟨i, -, h⟩ | ⟨-, h⟩ <;> rw [h] <;> rfl

theorem abortScript_rx (s : State) : (abortScript s).rx = s.rx := by
  rcases abortScript_cases s with ⟨i, -, h⟩ | ⟨-, h⟩ <;> rw [h]
  rfl

theorem advance_rx (s : State) : (advance s).rx = s.rx := by
  by_cases h : s.pos + 1 < s.script.length
  · rw [advance_inside h]
  · rw [advance_last h, finishScript_rx]

theorem completeAction_rx (a : Action) (failed : Bool) (s : State) : (completeAction a failed s).rx = s.rx := by
  rcases completeAction_cases a failed s with h | ⟨-, -, -, h⟩ | ⟨-, -, -, h⟩ <;> rw [h]
  · exact advance_rx s
  · exact advance_rx (s.emitLog _)
  · exact abortScript_rx s

theorem runScript_rx (s : State) : (runScript s).rx = s.rx := by
  rcases runScript_cases s with h | ⟨a, -, -, -, h⟩ | ⟨rest, -, -, h⟩ | ⟨a, c, rest, -, -, -, -, h⟩ | ⟨-, h⟩ <;> rw [h]
  · exact completeAction_rx a _ { s with actIn := rest }
  · exact finishScript_rx s

/-- Outside READY no byte is added to `S.rx`. -/
theorem step_rx_empty {s t : State} (hp : s.phase ≠ .ready) (hx : s.rx = []) (h : step s = .next t) : t.rx = [] := by
  cases step_cases h with
  | reset _ result => rw [result]; rfl
  | release _ _ result => rw [result, releaseReset_rx]
  | receives _ ready _ => exact absurd ready hp
  | runs _ _ result => rw [result, runScript_rx]; exact hx
  | answers r _ _ result => rw [result]; exact hx
  | waits result => rw [result]; exact hx

/-- Of the events at the ports only READY's takes a request byte. -/
theorem step_reqIn_held {s t : State} (hp : s.phase ≠ .ready) (h : step s = .next t) : t.reqIn = s.reqIn := by
  cases step_portEvent h with
  | still ports _ => exact ports.reqIn
  | byte ready _ => exact absurd ready hp
  | action _ _ _ _ _ result => rw [result]; rfl
  | response _ _ _ _ result => rw [result]; rfl
  | logged _ _ ports => exact ports.reqIn

/-! ## Quiescence and stale completions (R291, R270) -/

theorem step_quiescent {s : State} (hq : PinsQuiet s) (h : Quiescent s) : step s = .next s := by
  rcases h with ⟨hp, -, hr⟩ | hp
  · rw [step_ready hq hp, acceptByte, hr]
  · rw [step_halted (rstNow_quiet hq) hp, sampled_quiet hq]

/-- The completion of an abandoned action is taken and does nothing (R270). -/
theorem step_stale {s : State} {rest : List Completion} (hq : PinsQuiet s) (hrun : Running s) (hi : s.issued = true)
    (hpos : s.pos < s.script.length) (hin : s.actIn = .stale :: rest) : step s = .next { s with actIn := rest } := by
  rw [step_running hq hrun, runScript_await (List.getElem?_eq_getElem hpos) hi, awaitCompletion, hin]

/-! ## The parts of the init script (R273 to R276) -/

theorem homeScript_eq (e : Enc) : homeScript e = cmd e e.F.cmdDDRAM := congrArg (cmd e) BitVec.or_zero

/-- R276: the common tail as its command writes, the clear wait before home. -/
theorem initTail_eq (e : Enc) (FS DC EM : Byte) :
    initTail e FS DC EM = cmd e (e.F.cmdFS ||| FS) ++ cmd e (e.F.cmdDC ||| DC) ++ cmd e (e.F.cmdEM ||| EM)
      ++ cmd e e.F.cmdClear ++ [.wait e.P.tClear] ++ cmd e e.F.cmdDDRAM := by
  simp only [initTail, clearScript, homeScript_eq, List.append_assoc]

/-- R9 item 7: the wait of a mode-entry pulse is never left out. -/
theorem modeEntryPulse_eq (e : Enc) :
    modeEntryPulse e = nibWrite e e.P.modeEntryNibble false ++ [.wait e.P.tModeEntry] := by
  have hmin : 4100 ≤ e.P.tModeEntry := (WfParams_waits e.params).2.2
  rw [modeEntryPulse, waitFor_pos (by omega)]

theorem initScript_nibble {e : Enc} (h : e.family = .nibble) (FS DC EM : Byte) :
    initScript e FS DC EM = waitFor e.P.tPowerOn ++ nibblePreamble e ++ initTail e FS DC EM := by rw [initScript, h]

theorem initScript_byteMode {e : Enc} (h : e.family = .byteMode) (FS DC EM : Byte) :
    initScript e FS DC EM = waitFor e.P.tPowerOn ++ byteModePreamble e ++ initTail e FS DC EM := by rw [initScript, h]

/-! ## The init script under CFG-GK (R278) -/

/-- What an encoder reads under CFG-GK, the backlight on (R8, R10). -/
def gkEnc (o : OpenEntries) (f : Family) (a : BusAddr) : Enc := ⟨gk o, f, a, true⟩

/-- A nibble's three expander bytes under CFG-GK: the nibble in the high half, the backlight in bit 3, EN in bit 2. -/
def gkNibbleBytes (n : Nibble) : List Byte := [n ++ 0x8#4, n ++ 0xC#4, n ++ 0x8#4]

theorem xb_gk (o : OpenEntries) (f : Family) (a : BusAddr) (n : Nibble) (en : Bool) :
    xb (gkEnc o f a) n false en = n ++ (if en then 0xC#4 else 0x8#4) := by
  have bytes : ∀ (n : Nibble) (en : Bool),
      (n.setWidth 8 <<< 4 ||| maskIf false 0x01 ||| maskIf en 0x04 ||| maskIf true 0x08 : Byte)
        = n ++ (if en then 0xC#4 else 0x8#4) := by decide
  exact bytes n en

theorem nibWrite_gk (o : OpenEntries) (f : Family) (a : BusAddr) (n : Nibble) :
    nibWrite (gkEnc o f a) n false = (gkNibbleBytes n).map (Action.wb a) := by
  have noStepWait : (gkEnc o f a).P.tNibStep = 0 := rfl
  rw [nibWrite_eq, if_pos noStepWait, xb_gk, xb_gk]
  rfl

theorem modeEntryPulse_gk (o : OpenEntries) (f : Family) (a : BusAddr) :
    modeEntryPulse (gkEnc o f a) = (gkNibbleBytes 0x3).map (Action.wb a) ++ [.wait 4100] :=
  congrArg (· ++ [Action.wait 4100]) (nibWrite_gk o f a 0x3)

theorem nibPreTail_gk (o : OpenEntries) (f : Family) (a : BusAddr) :
    initSteps (gkEnc o f a) (gkEnc o f a).P.nibPreTail = (gkNibbleBytes 0x2).map (Action.wb a) :=
  (List.append_nil _).trans (nibWrite_gk o f a 0x2)

/-- Both families have the same command codes and defaults under CFG-GK. -/
theorem gkEnc_F (o : OpenEntries) (f : Family) (a : BusAddr) : (gkEnc o f a).F = gkFamily := by cases f <;> rfl

/-- A command byte under CFG-GK in the nibble family: its low nibble's bytes, then its high nibble's (R124). -/
theorem cmd_gk_nibble (o : OpenEntries) (a : BusAddr) (b : Byte) :
    cmd (gkEnc o .nibble a) b = (gkNibbleBytes (lowNibble b) ++ gkNibbleBytes (highNibble b)).map (Action.wb a) := by
  rw [cmd_nibble rfl, nibByte, nibWrite_gk, nibWrite_gk, List.map_append]

/-- R275: without waits, each step of the byte-mode preamble is one write and its settle wait. -/
theorem byteModePreamble_gk_length {o : OpenEntries} (a : BusAddr) (h : ∀ st ∈ o.preamble, ∀ t, st ≠ .wait t) :
    (byteModePreamble (gkEnc o .byteMode a)).length = 2 * o.preamble.length := by
  have two : ∀ st ∈ o.preamble, (initStep (gkEnc o .byteMode a) st.toInit).length = 2 := by
    intro st hst
    cases st with
    | cmd b => rfl
    | dat b => rfl
    | wait t => exact absurd rfl (h _ hst t)
  change ((o.preamble.map PreambleStep.toInit).flatMap (initStep (gkEnc o .byteMode a))).length = _
  rw [List.flatMap_map, List.length_flatMap, List.map_congr_left two, List.map_const', List.sum_replicate]
  exact Nat.mul_comm ..

end Sys2Proof.Machine

namespace Sys2Proof.Safety

open Sys2Proof.Machine

/-! ## The statements about reset and the init script -/

/-- Settles O14: the step of `rst` touches no port, and a running script passes a stale completion over. -/
theorem resetAbandonsEverything : Obligations.ResetAbandonsEverything := by
  refine ⟨fun s hr => ?_, fun _ _ => step_stale⟩
  have h := step_reset hr
  rw [samplePins_eq] at h
  exact ⟨_, h, rfl, rfl, rfl, rfl, rfl, rfl, rfl, rfl, rfl, rfl, rfl, rfl⟩

/-- Settles O15: the straps' levels decide between INIT and CONFIG_ERROR, and each writes what the statement lists. -/
theorem releaseSamplesTheStraps : Obligations.ReleaseSamplesTheStraps := by
  intro s hr hp
  have h := step_release hr hp
  by_cases legal : LegalStraps (cfgNow s)
  · rw [releaseReset_legal (s := sampled s) legal] at h
    exact ⟨_, h, rfl, rfl, rfl, rfl, rfl, rfl, rfl, rfl,
      fun _ => ⟨rfl, rfl, rfl, rfl, rfl, rfl, rfl, rfl, rfl, rfl, rfl, rfl⟩, fun illegal => absurd legal illegal⟩
  · rw [releaseReset_illegal (s := sampled s) legal] at h
    exact ⟨_, h, rfl, rfl, rfl, rfl, rfl, rfl, rfl, rfl, fun hl => absurd hl legal, fun _ => ⟨rfl, rfl, rfl, rfl⟩⟩

/-- Settles O18: only READY takes a byte, and the halted phases wait. -/
theorem requestBytesHeldOutsideReady : Obligations.RequestBytesHeldOutsideReady := by
  intro s t hp h
  refine ⟨step_reqIn_held hp h, fun hx => step_rx_empty hp hx h, fun halted hr => ?_⟩
  cases (step_halted hr halted).symm.trans h
  rfl

/-- Settles O20: a quiescent block's step changes nothing, so no run does. -/
theorem quiescentBlockStaysQuiescent : Obligations.QuiescentBlockStaysQuiescent :=
  fun _ k hq h => run_still (step_quiescent hq h) k

/-- Settles O28: the family chooses the preamble, and R9 item 7 keeps the waits of the pulses and of the clear. -/
theorem initScriptOrder : Obligations.InitScriptOrder := by
  intro e FS DC EM pulse tail
  obtain ⟨-, hclear, hmode⟩ := WfParams_waits e.params
  have htail : initTail e FS DC EM = tail := initTail_eq e FS DC EM
  have hpulse : modeEntryPulse e = pulse := modeEntryPulse_eq e
  refine ⟨fun hf => ?_, fun hf => ?_, hmode, hclear⟩
  · rw [initScript_nibble hf, nibblePreamble, hpulse, htail]
    simp only [List.append_assoc]
  · rw [initScript_byteMode hf, byteModePreamble, htail]

/-- Settles O27: the parts of the script under CFG-GK, each command as its family's writes. -/
theorem initScriptActions : Obligations.InitScriptActions := by
  intro o a w
  constructor
  · change initScript (gkEnc o .nibble a) _ _ _ = _
    rw [initScript_nibble rfl, nibblePreamble, modeEntryPulse_gk, nibPreTail_gk, initTail_eq]
    simp only [cmd_gk_nibble, gkEnc_F]
    rfl
  · intro hpre sc
    have hsc : sc = byteModePreamble (gkEnc o .byteMode a) ++ initTail (gkEnc o .byteMode a) 0x08 0x04 0x02 :=
      initScript_byteMode rfl _ _ _
    have hlen := byteModePreamble_gk_length a hpre
    rw [hsc, initTail_eq]
    simp only [cmd_byteMode (e := gkEnc o .byteMode a) rfl, gkEnc_F]
    constructor
    · rw [List.length_append, hlen]
      rfl
    · rw [List.drop_left' hlen]
      rfl

end Sys2Proof.Safety
end
